-- ==== Sys2Proof/Word.lean ====
section
/-! DEFINITION. The word types: the byte of memory and the 64-bit container in which every register, linear
address and physical address of the spec is held (10_state.md R22, R24; 20_memory.md R90). -/

namespace Sys2Proof

/-- One byte of memory (20_memory.md R90: memory is byte addressed). -/
abbrev Byte := BitVec 8

/-- The 64-bit container of a general register, `RIP`, `RFLAGS`, and of a linear or physical address. -/
abbrev Word := BitVec 64

end Sys2Proof
end

