-- ==== Sys2Proof/Syntax.lean ====
section
/-! DEFINITION. The instructions: one constructor per row of spec/opcode_table.json, which has one row. -/

namespace Sys2Proof

/-- The opcode map of the spec (30_encoding.md R141). The one instruction is `ENCLU`; which leaf function it
performs is not part of the instruction but of `EAX` at the time it executes (R130, R131), so the row
`ENCLU[ERESUME]` is the term `enclu`. It has no operand, no immediate and no field (R134). -/
inductive Instr where
  | enclu
  deriving DecidableEq, Repr, Inhabited

end Sys2Proof
end

