-- ==== Sys2Proof/WellFormed.lean ====
section
/-! DEFINITION. Which terms are instructions of the hardware. Nothing in `ENCLU` varies (30_encoding.md R134), so
there is no field to check and no ill-formed term. -/

namespace Sys2Proof

/-- `ENCLU` has no register, mode, immediate or displacement field (30_encoding.md R134): every term is well formed. -/
def Instr.wellFormed : Instr → Bool
  | .enclu => true

end Sys2Proof
end

