-- ==== Sys2Proof/Decode.lean ====
section
/-! DEFINITION. The decoder, total on any bytes and rejecting by name, and the encoder. The bytes of `ENCLU`,
`0F 01 D7`, are general knowledge and not in the source (30_encoding.md R132; assumption 3). -/

namespace Sys2Proof

/-- One row of the opcode table (spec/opcode_table.json), its 24 bits numbered as the table numbers them: the first
byte of the instruction is bits 23:16. -/
structure OpcodeRow where
  mask : BitVec 24
  pattern : BitVec 24
  instr : Instr
  deriving DecidableEq, Repr

/-- The opcode table: one row (30_encoding.md R141). -/
def opcodeRows : List OpcodeRow :=
  [{ mask := 0xFFFFFF#24, pattern := 0x0F01D7#24, instr := .enclu }]

/-- Why bytes are not an instruction of this spec. -/
inductive DecodeError where
  /-- the bytes end before the instruction does -/
  | truncated
  /-- the first byte is one of the prefixes R138 names: the spec admits only the unprefixed form -/
  | prefixed (b : Byte)
  /-- no row of the opcode table matches -/
  | notInTable (b0 b1 b2 : Byte)
  deriving DecidableEq, Repr

/-- The prefix bytes of 30_encoding.md R138: operand size, address size, REP and REPNE, LOCK, segment override. -/
def prefixBytes : List Byte :=
  [0x66#8, 0x67#8, 0xF2#8, 0xF3#8, 0xF0#8, 0x26#8, 0x2E#8, 0x36#8, 0x3E#8, 0x64#8, 0x65#8]

/-- The row of the table that three bytes match. -/
def matchRow (b0 b1 b2 : Byte) : Option OpcodeRow :=
  opcodeRows.find? fun r => (b0 ++ b1 ++ b2) &&& r.mask == r.pattern

/-- Decode the instruction at the head of a byte list and return what follows it (30_encoding.md R132, R138). -/
def decode : List Byte → Except DecodeError (Instr × List Byte)
  | [] => .error .truncated
  | [b0] => if b0 ∈ prefixBytes then .error (.prefixed b0) else .error .truncated
  | [b0, _] => if b0 ∈ prefixBytes then .error (.prefixed b0) else .error .truncated
  | b0 :: b1 :: b2 :: rest =>
    if b0 ∈ prefixBytes then .error (.prefixed b0)
    else
      match matchRow b0 b1 b2 with
      | some r => .ok (r.instr, rest)
      | none => .error (.notInTable b0 b1 b2)

/-- The bytes of an instruction, first byte first (30_encoding.md R132). -/
def encode : Instr → List Byte
  | .enclu => [0x0F#8, 0x01#8, 0xD7#8]

/-- The length of the longest instruction, in bytes (30_encoding.md R132). -/
def maxInstrBytes : Nat := 3

/-- The bytes of an instruction given as the number the opcode table gives it: `nbits / 8` bytes, the first being
the most significant (assumption 4), then zero bytes up to the longest instruction. -/
def tableBytes (nbits w : Nat) : List Byte :=
  ((List.range (nbits / 8)).map fun i => BitVec.ofNat 8 (w >>> (8 * (nbits / 8 - 1 - i))))
    ++ List.replicate (maxInstrBytes - nbits / 8) 0#8

/-- The instruction the decoder reads from the table's number for it. -/
def decodeTableWord (nbits w : Nat) : Option Instr :=
  match decode (tableBytes nbits w) with
  | .ok (i, _) => some i
  | .error _ => none

end Sys2Proof
end

