-- ==== Sys2Proof/Config.lean ====
section
/-! DEFINITION. What is fixed for one machine and what the spec leaves open. The named parameters of
00_scope.md R8 that are data are the fields of `Platform`; the state carries one `Platform`, which no step
changes, so a claim about every state holds for every value of every parameter. What must stay uninterpreted
(the value XRSTOR loads, every `draw` of the spec) is an `opaque` constant with no body, applied to its operands
or to the draw counter of the state. -/

namespace Sys2Proof.Config

/-- The access kinds of `Translate` (20_memory.md R95). -/
inductive Access where
  | read
  | write
  | readwrite
  deriving DecidableEq, Repr, Inhabited

/-- The class of a fault that `Translate` reports. The spec fixes none (R95: the usual one is a page fault). -/
inductive FaultClass where
  | pageFault
  | generalProtection
  | other (vector : Nat)
  deriving DecidableEq, Repr, Inhabited

/-- Which address a fault reported by `Translate` carries. -/
inductive FaultAddress where
  | accessed
  | none
  | given (la : Word)
  deriving DecidableEq, Repr, Inhabited

/-- The `f` of `Translate(la, access) = fault(f)` (20_memory.md R95), as the paging of the platform gives it. The 32 bits
of the code are the model's choice, DESIGN CHOICE (assumption 15). -/
structure PageFaultSpec where
  cls : FaultClass
  errorCode : BitVec 32
  address : FaultAddress
  deriving DecidableEq, Repr, Inhabited

/-- What `Translate` answers for one page and one access kind: the page frame (bits 63:12 of the physical
address), or a fault. -/
inductive PageResult where
  | ok (frame : BitVec 52)
  | fault (f : PageFaultSpec)
  deriving DecidableEq, Repr, Inhabited

/-- The answers of `Translate` for one 4096-byte page. -/
structure PageXlat where
  onRead : PageResult
  onWrite : PageResult
  onReadWrite : PageResult
  deriving DecidableEq, Repr, Inhabited

/-- The parameter `Translate`, page by page (20_memory.md R95, D17): linear page number to answer, and the fault
for a page that is not listed. -/
structure Translation where
  pages : List (Nat × PageXlat)
  unlisted : PageFaultSpec
  deriving DecidableEq, Repr, Inhabited

/-- One range of the parameter `EPC` (10_state.md R68): `count` physical pages from page number `first`. -/
structure EpcRange where
  first : Nat
  count : Nat
  deriving DecidableEq, Repr, Inhabited

/-- Sixteen like things, one per general register (10_state.md R22). -/
structure RegFile (α : Type) where
  rax : α
  rcx : α
  rdx : α
  rbx : α
  rsp : α
  rbp : α
  rsi : α
  rdi : α
  r8 : α
  r9 : α
  r10 : α
  r11 : α
  r12 : α
  r13 : α
  r14 : α
  r15 : α
  deriving DecidableEq, Repr, Inhabited

/-- The parameter `GPR_LAYOUT` (00_scope.md R8, D2, D21): byte offsets in the GPR area. A register with no offset
is not restored. -/
structure GprLayout where
  reg : RegFile (Option Nat)
  rflags : Nat
  rip : Nat
  fsbase : Nat
  gsbase : Nat
  deriving DecidableEq, Repr, Inhabited

/-- The parameter `TCS_LAYOUT` (00_scope.md R8, D2): the byte offsets of 10_state.md R62. No rule reads them. -/
structure TcsLayout where
  state : Nat
  flags : Nat
  ossa : Nat
  cssa : Nat
  nssa : Nat
  oentry : Nat
  aep : Nat
  ofsbase : Nat
  ogsbase : Nat
  fslimit : Nat
  gslimit : Nat
  deriving DecidableEq, Repr, Inhabited

/-- The parameter `SECS_LAYOUT` (00_scope.md R8, D2): the byte offsets of 10_state.md R66, and the places of the named
bits in `ATTRIBUTES`. No rule reads them. -/
structure SecsLayout where
  size : Nat
  baseaddr : Nat
  ssaframesize : Nat
  miscselect : Nat
  attributes : Nat
  initBit : Nat
  debugBit : Nat
  mode64bitBit : Nat
  xfrmLowBit : Nat
  deriving DecidableEq, Repr, Inhabited

/-- The three arguments of the parameters `XRSTOR_FAILS` and `XRSTOR_LOAD` (41_enclu_eresume_commit.md R231, R232). -/
structure XrstorArgs where
  mode64 : Bool
  xfrm : Word
  bytes : List Byte
  deriving DecidableEq, Repr, Inhabited

/-- The parameter `SAVE_TF_READING` (41_enclu_eresume_commit.md R257, C6, D7). -/
inductive SaveTfReading where
  | operationOrder
  | prose
  deriving DecidableEq, Repr, Inhabited

/-- The named parameters of 00_scope.md R8 that are data. -/
structure Platform where
  /-- `LA_BITS` -/
  laBits : Nat
  /-- `EPC` -/
  epc : List EpcRange
  /-- `Translate` -/
  xlat : Translation
  /-- `XSAVE_SIZE`: its value for the listed masks; for every other it is `xsaveSizeOther` -/
  xsaveSizes : List (Word × Word)
  /-- `GPR_SIZE` -/
  gprSize : Nat
  /-- `GPR_LAYOUT` -/
  gprLayout : GprLayout
  /-- `TCS_LAYOUT`, a listed parameter that no rule reads (D2) -/
  tcsLayout : TcsLayout
  /-- `SECS_LAYOUT`, a listed parameter that no rule reads (D2) -/
  secsLayout : SecsLayout
  /-- `XRSTOR_FAILS`: the inputs on which it is true beyond those R231 forces -/
  xrstorFailsAlso : List XrstorArgs
  /-- `SAVE_TF_READING` -/
  saveTf : SaveTfReading
  /-- `XSAVE_AVAILABLE`, a listed parameter that no rule reads (90_conflicts.md C17) -/
  xsaveAvailable : Bool
  /-- the CPUID feature flag `SGX1` (30_encoding.md R136) -/
  sgx1 : Bool
  deriving DecidableEq, Repr, Inhabited

/-- The oracle inputs of one execution (00_scope.md R8): what other agents contribute to it. -/
structure Oracle where
  /-- `TCS_LOCK_CONFLICT` (40_enclu_eresume_checks.md R170, D15) -/
  tcsLockConflict : Bool
  /-- `SECS_BUSY` (40_enclu_eresume_checks.md R179, D14) -/
  secsBusy : Bool
  /-- `PERFMON_SUPPRESSED_ANY` (60_exceptions.md R321, D27) -/
  perfmonSuppressedAny : Bool
  deriving DecidableEq, Repr, Inhabited

/-- The extended state `XSTATE`, one opaque value (10_state.md R36). -/
structure XState where
  image : List Byte
  deriving DecidableEq, Repr, Inhabited

/-- One record of the LBR stack: "From/to addresses" (10_state.md R56); 64 bits each is the model's choice (assumption
36). -/
structure BranchRecord where
  source : Word
  target : Word
  deriving DecidableEq, Repr, Inhabited

/-- Which page a `#PF` of ERESUME is about. -/
inductive PfPage where
  | tcs
  | xsave
  | gpr
  deriving DecidableEq, Repr, Inhabited

/-- Which test of that page failed. -/
inductive PfTest where
  | notInEpc
  | notValid
  | blocked
  | pendingOrModified
  | wrongPage
  deriving DecidableEq, Repr, Inhabited

/-- The cause of a `#PF`, the argument of `PF_ERROR_CODE` (60_exceptions.md R293, R296). -/
structure PfCause where
  page : PfPage
  test : PfTest
  deriving DecidableEq, Repr, Inhabited

/-- `XRSTOR_LOAD(mode64, xfrm, bytes)` (41_enclu_eresume_commit.md R232): only that it is a function of its three
arguments may be assumed. -/
opaque xrstorLoad : XrstorArgs → XState

/-- `XSAVE_SIZE(xfrm)` for a mask that `Platform.xsaveSizes` does not list (00_scope.md R8: from CPUID leaf 0DH, which is
outside the spec). -/
opaque xsaveSizeOther : Word → Word

/-- The extended state after a failed restore, a `draw` (41_enclu_eresume_commit.md R233, U2): it may depend on what
XRSTOR was given and on what the extended state was. -/
opaque freeXState : XrstorArgs → XState → Nat → XState

/-- `PF_ERROR_CODE(cause)`, a `draw` for every cause (60_exceptions.md R296, D16). The spec gives the code no width (R296,
00_scope.md R8): its 32 bits are the model's choice, DESIGN CHOICE (assumption 18). -/
opaque pfErrorCode : PfCause → Nat → BitVec 32

/-- The LBR stack after a successful ERESUME: neither that a branch is recorded nor that none is may be assumed
(60_exceptions.md R316, N14). It may depend on the branch ERESUME makes and on the stack before it. -/
opaque freeLbrStack : BranchRecord → List BranchRecord → Nat → List BranchRecord

/-- `FIXED_CTR1` after an execution that began with the given value: it goes on counting, and counter values are outside
the spec (60_exceptions.md R318, R325, U9; assumption 13). -/
opaque freeFixedCtr1 : Word → Nat → Word

/-- `FIXED_CTR2` after an execution that began with the given value (as `freeFixedCtr1`). -/
opaque freeFixedCtr2 : Word → Nat → Word

/-- The oracle inputs of the execution after this one. -/
opaque freeOracle : Nat → Oracle

end Sys2Proof.Config
end

