-- ==== Sys2Proof/Machine/State.lean ====
section
/-! DEFINITION. The state of the machine as plain data: everything 10_state.md gives it, the premises of
92_eei_decisions.md D24, the platform's parameters and the model's own draw counter; the faults and refusals;
the state after reset. -/

namespace Sys2Proof.Machine

open Sys2Proof.Config

/-- The general registers by name, in the order of 10_state.md R22. -/
inductive Reg where
  | rax | rcx | rdx | rbx | rsp | rbp | rsi | rdi
  | r8 | r9 | r10 | r11 | r12 | r13 | r14 | r15
  deriving DecidableEq, Repr, Inhabited

/-- The access rights of a segment register (10_state.md R27, R28). `W` is bit 1 of `typ`. -/
structure AccessRights where
  typ : BitVec 4
  s : Bool
  dpl : BitVec 2
  p : Bool
  avl : Bool
  l : Bool
  b : Bool
  g : Bool
  unusable : Bool
  deriving DecidableEq, Repr, Inhabited

/-- A segment register, visible and hidden parts (10_state.md R27, R28). -/
structure Segment where
  selector : BitVec 16
  base : Word
  limit : BitVec 32
  ar : AccessRights
  deriving DecidableEq, Repr, Inhabited

/-- The pair (base, size) of `CR_ELRANGE` (10_state.md R39). -/
structure Elrange where
  base : Word
  size : Word
  deriving DecidableEq, Repr, Inhabited

/-- The internal control registers `CR_*` (10_state.md R37 to R48). -/
structure CrRegs where
  enclaveMode : Bool
  activeSecs : Word
  elrange : Elrange
  tcsPa : Word
  tcsLa : Word
  gprPa : Word
  xsavePages : List Word
  saveFs : Segment
  saveGs : Segment
  saveXcr0 : Word
  saveTf : Bool
  dbgOptIn : Bool
  deriving DecidableEq, Repr, Inhabited

/-- A member of the set `PENDING_DBG` (10_state.md R51). The members besides the single step, which is the one ERESUME
puts in, are the model's choice (assumption 34). -/
inductive PendingDebug where
  | singleStep
  | codeBreakpoint
  | dataBreakpoint
  | other (n : Nat)
  deriving DecidableEq, Repr, Inhabited

/-- Breakpoint suppression, pending debug exceptions and monitor-trap-flag state (10_state.md R50 to R52). -/
structure DebugState where
  suppressCodeBpOutsideElrange : Bool
  suppressCodeBpInElrange : Bool
  suppressDataBpInElrange : Bool
  pendingDbg : List PendingDebug
  pendingMtfVmexit : Bool
  suppressMtfVmexit : Bool
  deriving DecidableEq, Repr, Inhabited

/-- Another hardware thread, as far as ERESUME writes it (10_state.md R53, 60_exceptions.md R320). -/
structure Sibling where
  countsAnyThread : Bool
  anyThreadDemoted : Bool
  perfGlobalStatus : Word
  deriving DecidableEq, Repr, Inhabited

/-- Performance monitoring of this logical processor (10_state.md R34, R53). R325 leaves the width of the two counters
open: 64 bits are the model's choice, DESIGN CHOICE (assumption 13). -/
structure PerfState where
  globalStatus : Word
  fixedCtr1 : Word
  fixedCtr2 : Word
  perfmonSuppressed : Bool
  pebsSuppressed : Bool
  deriving DecidableEq, Repr, Inhabited

/-- One cached translation of the linear context `TLB` (10_state.md R55); its form, a page and a frame number of 52 bits,
is the model's choice (assumption 36). -/
structure TlbEntry where
  page : BitVec 52
  frame : BitVec 52
  deriving DecidableEq, Repr, Inhabited

/-- The two values of `TCS.STATE` (10_state.md R63, D5). -/
inductive TcsState where
  | inactive
  | active
  deriving DecidableEq, Repr, Inhabited

/-- The TCS, a record of the fields the source names (10_state.md R60, D2). -/
structure Tcs where
  state : TcsState
  flags : Word
  ossa : Word
  cssa : BitVec 32
  aep : Word
  ofsbase : Word
  ogsbase : Word
  fslimit : BitVec 32
  gslimit : BitVec 32
  deriving DecidableEq, Repr, Inhabited

/-- The SECS, a record of the fields the source names and the bit `INIT` (10_state.md R64, R65, D2). -/
structure Secs where
  init : Bool
  mode64bit : Bool
  xfrm : Word
  baseaddr : Word
  size : Word
  ssaframesize : BitVec 32
  deriving DecidableEq, Repr, Inhabited

/-- The EPCM page types (10_state.md R70): every other value compares unequal to both. The spec gives the field no width
(N8): another type's code in 8 bits is the model's choice, DESIGN CHOICE (assumption 22). -/
inductive PageType where
  | ptTcs
  | ptReg
  | other (code : BitVec 8)
  deriving DecidableEq, Repr, Inhabited

/-- The EPCM entry of one EPC page (10_state.md R69). `enclaveSecs` identifies the SECS by its physical address
(R67). R69 gives `ENCLAVEADDRESS` and `ENCLAVESECS` no width: 64 bits are the model's choice (assumption 22). -/
structure EpcmEntry where
  valid : Bool
  blocked : Bool
  pending : Bool
  modified : Bool
  enclaveAddress : Word
  pt : PageType
  enclaveSecs : Word
  r : Bool
  w : Bool
  deriving DecidableEq, Repr, Inhabited

/-- The operating modes that 92_eei_decisions.md D24 tells apart. `protectedMode` covers IA-32e mode. -/
inductive ProcMode where
  | realAddress
  | virtual8086
  | systemManagement
  | protectedMode
  deriving DecidableEq, Repr, Inhabited

/-- What every rule of the spec takes as a premise (92_eei_decisions.md D24; 30_encoding.md R135, R136;
60_exceptions.md R310). -/
structure Premises where
  cpl : BitVec 2
  mode : ProcMode
  paging : Bool
  sgxEnabled : Bool
  deriving DecidableEq, Repr, Inhabited

/-- What a byte of memory that nothing has written reads as (assumption 9). -/
def unlistedByte : Byte := 0#8

/-- The TCS of a physical page on which none was created (assumption 10). -/
def Tcs.blank : Tcs :=
  { state := .inactive, flags := 0#64, ossa := 0#64, cssa := 0#32, aep := 0#64, ofsbase := 0#64
    ogsbase := 0#64, fslimit := 0#32, gslimit := 0#32 }

/-- The SECS at an address where none was created: not initialized (40_enclu_eresume_checks.md R180; assumption 10). -/
def Secs.blank : Secs :=
  { init := false, mode64bit := false, xfrm := 0#64, baseaddr := 0#64, size := 0#64, ssaframesize := 0#32 }

/-- The EPCM entry of a page that was never added: `VALID = 0` (10_state.md R80; assumption 10). -/
def EpcmEntry.blank : EpcmEntry :=
  { valid := false, blocked := false, pending := false, modified := false, enclaveAddress := 0#64
    pt := .other 0#8, enclaveSecs := 0#64, r := false, w := false }

/-- The state of the machine. -/
structure State where
  /-- general registers (10_state.md R22) -/
  gpr : RegFile Word
  /-- instruction pointer (R24) -/
  rip : Word
  /-- flags register (R25, R26) -/
  rflags : Word
  /-- segment registers (R27, R28) -/
  cs : Segment
  ss : Segment
  ds : Segment
  es : Segment
  fs : Segment
  gs : Segment
  /-- `IA32_EFER` (R31, R35), which gives it no width: 64 bits are PRESUMED, the family's (assumption 22) -/
  efer : Word
  /-- `CR4` (R32, R35), which gives it no width: 64 bits are PRESUMED, the family's (assumption 22) -/
  cr4 : Word
  /-- `XCR0` (R33) -/
  xcr0 : Word
  /-- extended state (R36) -/
  xstate : XState
  /-- internal control registers (R37 to R48) -/
  cr : CrRegs
  /-- debug state (R50 to R52) -/
  dbg : DebugState
  /-- performance monitoring (R34, R53) -/
  perf : PerfState
  /-- the other hardware threads (R53, 60_exceptions.md R320) -/
  siblings : List Sibling
  /-- `MONITOR_ARMED` (R54) -/
  monitorArmed : Bool
  /-- linear context (R55) -/
  tlb : List TlbEntry
  /-- LBR stack (R56) -/
  lbr : List BranchRecord
  /-- physical memory, byte by byte (20_memory.md R90) -/
  mem : List Host.Cell
  /-- the TCS pages, by physical page number (R60) -/
  tcs : List (Nat × Tcs)
  /-- the SECSs, by physical address (R64, R67) -/
  secs : List (Nat × Secs)
  /-- the EPCM, by physical page number (R69) -/
  epcm : List (Nat × EpcmEntry)
  /-- the premises of every rule (92_eei_decisions.md D24) -/
  prem : Premises
  /-- the named parameters (00_scope.md R8); no step changes them -/
  plat : Platform
  /-- the oracle inputs of the next execution (00_scope.md R8) -/
  oracle : Oracle
  /-- the MODEL's own field: how many executions have drawn free values (assumption 11) -/
  draws : Nat
  deriving DecidableEq, Repr, Inhabited

/-- A fault that `Translate` reported, as delivered (60_exceptions.md R297). -/
structure DeliveredFault where
  cls : FaultClass
  errorCode : BitVec 32
  address : Option Word
  deriving DecidableEq, Repr, Inhabited

/-- The outcome "fault (class, error code, address)" of 60_exceptions.md R301 and 70_reset_and_hazards.md R352, with
the state of R300. The spec gives the error code no width: 32 bits are the model's choice (assumption 18). Exception delivery is outside the spec, so the machine stops here: safe. -/
inductive Fault where
  /-- `#GP` (R291), raised by ENCLU[ERESUME]: an error code and no address. Safe. -/
  | generalProtection (errorCode : BitVec 32) (after : State)
  /-- `#PF(la)` (R292), raised by ENCLU[ERESUME]: the faulting linear address and an error code. Safe. -/
  | pageFault (la : Word) (errorCode : BitVec 32) (after : State)
  /-- "that fault" (R297), reported by `Translate` and delivered unchanged by ENCLU[ERESUME]. Safe. -/
  | translationFault (f : DeliveredFault) (after : State)
  deriving DecidableEq, Repr

/-- Executions to which the spec gives no meaning. Every one is safe: nothing can be proved past it. -/
inductive Refusal where
  /-- an arm of exec whose instruction has no meaning yet; raised by exec only. Safe. -/
  | notModelled (mnemonic : String)
  /-- `ENCLU` with `EAX ≠ 3` (30_encoding.md R137, U10), raised by ENCLU. Safe. -/
  | leafNotInSpec (eax : BitVec 32)
  /-- SGX1 absent or SGX not enabled (30_encoding.md R136, D24), raised by ENCLU. Safe. -/
  | sgxNotAvailable
  /-- real-address, virtual-8086 or system-management mode, or paging off (30_encoding.md R135, D24), raised by
  ENCLU. Safe. -/
  | modeNotInSpec
  /-- a privilege level other than 3 (60_exceptions.md R310, D24), raised by ENCLU. Safe. -/
  | privilegeNotInSpec
  /-- bytes of the GPR area on a page that no check has covered (93_implementation_defined.md U5), raised by
  ENCLU[ERESUME]. Safe. -/
  | gprAreaUnchecked
  /-- `Translate` gives no page for the instruction's bytes; instruction fetch is outside the spec (70_reset_and_hazards.md
  R352). Raised by step. Safe. -/
  | fetchNotTranslated (la : Word)
  /-- bytes that are no instruction of the spec (30_encoding.md R138). Raised by step. Safe. -/
  | encodingNotInSpec (b0 b1 b2 : Byte)
  deriving DecidableEq, Repr

/-- The parameter values at reset: the defaults of 00_scope.md R8 (assumption 6). -/
def Platform.default : Platform :=
  { laBits := 48
    epc := []
    xlat := { pages := [], unlisted := { cls := .pageFault, errorCode := 0#32, address := .accessed } }
    xsaveSizes := [(3#64, 576#64)]
    gprSize := 184
    gprLayout :=
      { reg :=
          { rax := some 0, rcx := some 8, rdx := some 16, rbx := some 24, rsp := some 32, rbp := some 40
            rsi := some 48, rdi := some 56, r8 := some 64, r9 := some 72, r10 := some 80, r11 := some 88
            r12 := some 96, r13 := some 104, r14 := some 112, r15 := some 120 }
        rflags := 128, rip := 136, fsbase := 168, gsbase := 176 }
    tcsLayout :=
      { state := 0, flags := 8, ossa := 16, cssa := 24, nssa := 28, oentry := 32, aep := 40, ofsbase := 48
        ogsbase := 56, fslimit := 64, gslimit := 68 }
    secsLayout :=
      { size := 0, baseaddr := 8, ssaframesize := 16, miscselect := 20, attributes := 48, initBit := 0
        debugBit := 1, mode64bitBit := 2, xfrmLowBit := 64 }
    xrstorFailsAlso := []
    saveTf := .operationOrder
    xsaveAvailable := true
    sgx1 := true }

/-- A data segment register after reset of the family (assumption 7). -/
def Segment.resetData : Segment :=
  { selector := 0#16, base := 0#64, limit := 0xFFFF#32
    ar := { typ := 3#4, s := true, dpl := 0#2, p := true, avl := false, l := false, b := false, g := false
            unusable := false } }

/-- `CS` after reset of the family (assumption 7). -/
def Segment.resetCode : Segment :=
  { Segment.resetData with selector := 0xF000#16, base := 0xFFFF0000#64 }

/-- A `CR_SAVE_FS_*` or `CR_SAVE_GS_*` group at reset (assumption 8). -/
def Segment.zero : Segment :=
  { selector := 0#16, base := 0#64, limit := 0#32
    ar := { typ := 0#4, s := false, dpl := 0#2, p := false, avl := false, l := false, b := false, g := false
            unusable := false } }

/-- The state after reset. The spec gives no reset value (10_state.md R80): the customary values of R80 where there
is one, else the family's, else zero (assumptions 6 to 11). -/
def State.reset : State :=
  { gpr :=
      { rax := 0#64, rcx := 0#64, rdx := 0x600#64, rbx := 0#64, rsp := 0#64, rbp := 0#64, rsi := 0#64, rdi := 0#64
        r8 := 0#64, r9 := 0#64, r10 := 0#64, r11 := 0#64, r12 := 0#64, r13 := 0#64, r14 := 0#64, r15 := 0#64 }
    rip := 0xFFF0#64
    rflags := 2#64
    cs := Segment.resetCode
    ss := Segment.resetData
    ds := Segment.resetData
    es := Segment.resetData
    fs := Segment.resetData
    gs := Segment.resetData
    efer := 0#64
    cr4 := 0#64
    xcr0 := 1#64
    xstate := { image := [] }
    cr :=
      { enclaveMode := false, activeSecs := 0#64, elrange := { base := 0#64, size := 0#64 }, tcsPa := 0#64
        tcsLa := 0#64, gprPa := 0#64, xsavePages := [], saveFs := Segment.zero, saveGs := Segment.zero
        saveXcr0 := 0#64, saveTf := false, dbgOptIn := false }
    dbg :=
      { suppressCodeBpOutsideElrange := false, suppressCodeBpInElrange := false, suppressDataBpInElrange := false
        pendingDbg := [], pendingMtfVmexit := false, suppressMtfVmexit := false }
    perf :=
      { globalStatus := 0#64, fixedCtr1 := 0#64, fixedCtr2 := 0#64, perfmonSuppressed := false
        pebsSuppressed := false }
    siblings := []
    monitorArmed := false
    tlb := []
    lbr := []
    mem := []
    tcs := []
    secs := []
    epcm := []
    prem := { cpl := 0#2, mode := .realAddress, paging := false, sgxEnabled := false }
    plat := Platform.default
    oracle := { tcsLockConflict := false, secsBusy := false, perfmonSuppressedAny := false }
    draws := 0 }

end Sys2Proof.Machine
end

