-- ==== Sys2Proof/Machine/Sparse.lean ====
section
/-! DEFINITION. Sparse data by key in one canonical form: keys strictly rising, no entry equal to what an unlisted
key reads as. Byte memory, the TCS pages, the SECSs and the EPCM are kept in it. -/

namespace Sys2Proof.Machine

/-- Read a key; `dflt` is what an unlisted key reads as. -/
def Sparse.get {α : Type} (dflt : α) : List (Nat × α) → Nat → α
  | [], _ => dflt
  | (a, v) :: t, k => if a = k then v else Sparse.get dflt t k

/-- Write a key, keeping the canonical form: writing `dflt` removes the entry. -/
def Sparse.set {α : Type} [DecidableEq α] (dflt : α) : List (Nat × α) → Nat → α → List (Nat × α)
  | [], k, v => if v = dflt then [] else [(k, v)]
  | (a, w) :: t, k, v =>
    if k < a then
      if v = dflt then (a, w) :: t else (k, v) :: (a, w) :: t
    else if k = a then
      if v = dflt then t else (k, v) :: t
    else (a, w) :: Sparse.set dflt t k v

/-- The canonical form. -/
def Sparse.wf {α : Type} [DecidableEq α] (dflt : α) : List (Nat × α) → Bool
  | [] => true
  | (a, v) :: t => decide (v ≠ dflt) && t.all (fun p => decide (a < p.1)) && Sparse.wf dflt t

/-- Read one byte of physical memory. -/
def Memory.get (m : List Host.Cell) (a : Nat) : Byte := Sparse.get unlistedByte m a

/-- Write one byte of physical memory. -/
def Memory.set (m : List Host.Cell) (a : Nat) (v : Byte) : List Host.Cell := Sparse.set unlistedByte m a v

/-- The canonical form of physical memory. -/
def Memory.wf (m : List Host.Cell) : Bool := Sparse.wf unlistedByte m

end Sys2Proof.Machine
end

