-- ==== Sys2Proof/Machine/Operands.lean ====
section
/-! DEFINITION. The operands of `ENCLU`, all implicit (30_encoding.md R133), and the forming of addresses
(20_memory.md R92, R93). -/

namespace Sys2Proof.Machine

open Sys2Proof.Config

/-- Read one of sixteen like things by register name (10_state.md R22). -/
def readReg {α : Type} (f : RegFile α) : Reg → α
  | .rax => f.rax
  | .rcx => f.rcx
  | .rdx => f.rdx
  | .rbx => f.rbx
  | .rsp => f.rsp
  | .rbp => f.rbp
  | .rsi => f.rsi
  | .rdi => f.rdi
  | .r8 => f.r8
  | .r9 => f.r9
  | .r10 => f.r10
  | .r11 => f.r11
  | .r12 => f.r12
  | .r13 => f.r13
  | .r14 => f.r14
  | .r15 => f.r15

/-- The register file that holds `f r` in every register `r`. -/
def buildRegs {α : Type} (f : Reg → α) : RegFile α :=
  { rax := f .rax, rcx := f .rcx, rdx := f .rdx, rbx := f .rbx, rsp := f .rsp, rbp := f .rbp, rsi := f .rsi
    rdi := f .rdi, r8 := f .r8, r9 := f .r9, r10 := f .r10, r11 := f .r11, r12 := f .r12, r13 := f .r13
    r14 := f .r14, r15 := f .r15 }

/-- `IA32_EFER.LMA`, bit 10 (10_state.md R31, R35). -/
def lma (s : State) : Bool := s.efer.getLsbD 10

/-- `CR4.OSFXSR`, bit 9 (10_state.md R32, R35). -/
def osfxsr (s : State) : Bool := s.cr4.getLsbD 9

/-- `CR4.OSXSAVE`, bit 18 (10_state.md R32, R35). -/
def osxsave (s : State) : Bool := s.cr4.getLsbD 18

/-- `TMP_MODE64` (40_enclu_eresume_checks.md R161). -/
def mode64 (s : State) : Bool := lma s && s.cs.ar.l

/-- Bits 31:0, zero-extended (20_memory.md R92). -/
def low32 (v : Word) : Word := (v.setWidth 32).setWidth 64

/-- An effective address: modulo 2^64 in 64-bit mode, modulo 2^32 otherwise (20_memory.md R92, D11). -/
def ea (m64 : Bool) (v : Word) : Word := if m64 then v else low32 v

/-- `LA(seg, off)` (20_memory.md R93). -/
def linear (m64 : Bool) (seg : Segment) (off : Word) : Word := if m64 then off else low32 (seg.base + off)

/-- `LA(DS, off)`. -/
def dsLinear (s : State) (off : Word) : Word := linear (mode64 s) s.ds off

/-- The leaf number, `EAX` (30_encoding.md R131). -/
def leaf (s : State) : BitVec 32 := s.gpr.rax.setWidth 32

/-- The offset of the TCS in DS: `RBX`, or `RBX[31:0]` outside 64-bit mode (40_enclu_eresume_checks.md R151). -/
def tcsOffset (s : State) : Word := ea (mode64 s) s.gpr.rbx

/-- The offset of the AEP in CS: `RCX`, or `RCX[31:0]` outside 64-bit mode (40_enclu_eresume_checks.md R151). -/
def aepOffset (s : State) : Word := ea (mode64 s) s.gpr.rcx

/-- The linear address of the TCS, `LA(DS, RBX)` (40_enclu_eresume_checks.md R151). -/
def tcsLinear (s : State) : Word := dsLinear s (tcsOffset s)

/-- The linear address of the AEP, `LA(CS, RCX)` (40_enclu_eresume_checks.md R169). -/
def aepLinear (s : State) : Word := linear (mode64 s) s.cs (aepOffset s)

/-- `aligned4K(v)` (00_scope.md R11). -/
def aligned4K (v : Word) : Bool := v.setWidth 12 == 0#12

/-- `canonical(v)`: bits 63 down to `LA_BITS - 1` are all equal (00_scope.md R11). -/
def canonical (laBits : Nat) (v : Word) : Bool :=
  v >>> (laBits - 1) == 0#64 || v >>> (laBits - 1) == BitVec.allOnes 64 >>> (laBits - 1)

/-- The address of the page that holds `v`: bits 11:0 cleared (40_enclu_eresume_checks.md R187, R201). -/
def pageOf (v : Word) : Word := v &&& 0xFFFFFFFFFFFFF000#64

/-- The number of the page that holds `v`. -/
def pageNo (v : Word) : Nat := v.toNat / 4096

/-- `W` of a segment register is bit 1 of its type (10_state.md R28, D28). -/
def segW (a : AccessRights) : Bool := a.typ.getLsbD 1

/-- One of the `len` bytes from `lo` is in ELRANGE, `BASEADDR <= a < BASEADDR + SIZE` (10_state.md R39): the greater of
the two first addresses is below the lesser of the two ends. -/
def overlapsElrange (e : Elrange) (lo len : Nat) : Bool :=
  decide (max lo e.base.toNat < min (lo + len) (e.base.toNat + e.size.toNat))

end Sys2Proof.Machine
end

