-- ==== Sys2Proof/Machine/Flags.lean ====
section
/-! DEFINITION. `RFLAGS`: the places of its fields (10_state.md R26) and what ERESUME makes of them
(41_enclu_eresume_commit.md R244 to R249, R257). -/

namespace Sys2Proof.Machine

/-- `v` with bit `i` set to `b`. -/
def withBit (v : Word) (i : Nat) (b : Bool) : Word :=
  if b then v ||| BitVec.twoPow 64 i else v &&& ~~~(BitVec.twoPow 64 i)

/-- The one-bit fields of `RFLAGS` by name (10_state.md R25, R26). -/
inductive Flag where
  | cf | pf | af | zf | sf | tf | if_ | df | of | nt | rf | vm | ac | vif | vip | id
  deriving DecidableEq, Repr

/-- The bit position of a flag (10_state.md R26). -/
def Flag.pos : Flag → Nat
  | .cf => 0
  | .pf => 2
  | .af => 4
  | .zf => 6
  | .sf => 7
  | .tf => 8
  | .if_ => 9
  | .df => 10
  | .of => 11
  | .nt => 14
  | .rf => 16
  | .vm => 17
  | .ac => 18
  | .vif => 19
  | .vip => 20
  | .id => 21

/-- Read a flag. -/
def flag (v : Word) (f : Flag) : Bool := v.getLsbD f.pos

/-- `IOPL`, bits 13:12 (10_state.md R26). -/
def iopl (v : Word) : BitVec 2 := (v >>> 12).setWidth 2

/-- Bit 1 reads as 1; bits 3, 5, 15 and 63:22 read as 0 (10_state.md R26). -/
def rflagsFixed (v : Word) : Bool := v &&& 0xFFFFFFFFFFC0802A#64 == 2#64

/-- The flags restored from the SSA without a condition (41_enclu_eresume_commit.md R244, R245). -/
def restoredFlags : List Flag := [.cf, .pf, .af, .zf, .sf, .df, .of, .nt, .ac, .id, .rf]

/-- Copy the listed flags of `saved` into `v`. -/
def copyFlags (saved : Word) : List Flag → Word → Word
  | [], v => v
  | f :: fs, v => copyFlags saved fs (withBit v f.pos (flag saved f))

/-- `RFLAGS` after a successful ERESUME, from its value before, the image in the GPR area and the opt-in bit:
R244 and R245 (eleven flags from the image), R246 (`VM <- 0`), R247 (`IF` from the image if `IOPL = 3`), R248 and
R257 (`TF <- 0` on opt-out entry); every other bit is as before (R249). -/
def mergeRflags (old saved : Word) (optIn : Bool) : Word :=
  let a := copyFlags saved restoredFlags old
  let b := withBit a Flag.vm.pos false
  let c := if iopl old = 3#2 then withBit b Flag.if_.pos (flag saved .if_) else b
  if optIn then c else withBit c Flag.tf.pos false

end Sys2Proof.Machine
end

