-- ==== Sys2Proof/Machine/Ops.lean ====
section
/-! DEFINITION. The named operations over memory, translation, the EPC structures and registers; raising an
exception; fetching an instruction's bytes. -/

namespace Sys2Proof.Machine

open Sys2Proof.Config

/-- What `Translate(la, access)` returns (20_memory.md R95). -/
inductive Translated where
  | ok (pa : Word)
  | fault (f : DeliveredFault)
  deriving DecidableEq, Repr

/-- The address a reported fault carries. -/
def faultAddress (la : Word) : FaultAddress → Option Word
  | .accessed => some la
  | .none => none
  | .given a => some a

/-- A reported fault as it is delivered (60_exceptions.md R297). -/
def deliver (la : Word) (f : PageFaultSpec) : DeliveredFault :=
  { cls := f.cls, errorCode := f.errorCode, address := faultAddress la f.address }

/-- The answers of `Translate` for a linear page, or `none` if it is not listed. -/
def findPage : List (Nat × PageXlat) → Nat → Option PageXlat
  | [], _ => none
  | (n, x) :: t, k => if n = k then some x else findPage t k

/-- The answer of a page for one access kind. -/
def pageResult (x : PageXlat) : Access → PageResult
  | .read => x.onRead
  | .write => x.onWrite
  | .readwrite => x.onReadWrite

/-- `Translate(la, access)` (20_memory.md R95): the parameter, applied page by page. -/
def translateAddr (p : Platform) (la : Word) (k : Access) : Translated :=
  match findPage p.xlat.pages (pageNo la) with
  | none => .fault (deliver la p.xlat.unlisted)
  | some x =>
    match pageResult x k with
    | .ok frame => .ok (frame ++ la.setWidth 12)
    | .fault f => .fault (deliver la f)

/-- `PA(la)`: the physical address that `Translate(la, readwrite)` yields (00_scope.md R11). It is read only where a
check has established that it yields one. -/
def paOf (s : State) (la : Word) : Word :=
  match translateAddr s.plat la .readwrite with
  | .ok pa => pa
  | .fault _ => 0#64

/-- `InEPC(pa)` (00_scope.md R11, 10_state.md R68). -/
def inEpc (p : Platform) (pa : Word) : Bool :=
  p.epc.any fun r => decide (r.first ≤ pageNo pa) && decide (pageNo pa < r.first + r.count)

/-- `EPCM(la)`: the entry of the page `PA(la)` with bits 11:0 cleared (20_memory.md R97). -/
def epcmAt (s : State) (la : Word) : EpcmEntry := Sparse.get EpcmEntry.blank s.epcm (pageNo (paOf s la))

/-- The byte at a linear address of the SSA frame, at the frame that `Translate(la, readwrite)` gave: the checks translate
these pages for read/write access, and R11 and 41_enclu_eresume_commit.md R243 name no access kind for the reads.
DESIGN CHOICE (assumption 16). -/
def byteAt (s : State) (la : Word) : Byte := Memory.get s.mem (paOf s la).toNat

/-- Bytes as one value, the byte at the lowest address in bits 7:0 (20_memory.md R100, D1). -/
def leWord : List Byte → Word
  | [] => 0#64
  | b :: t => b.setWidth 64 ||| (leWord t <<< 8)

/-- The physical page number of the TCS page. -/
def tcsKey (s : State) : Nat := pageNo (paOf s (tcsLinear s))

/-- The TCS at `LA(DS, RBX)` (10_state.md R60). -/
def tcsOf (s : State) : Tcs := Sparse.get Tcs.blank s.tcs (tcsKey s)

/-- Write the TCS at `LA(DS, RBX)` whole; the other TCSs stay. -/
def setTcs (s : State) (t : Tcs) : State := { s with tcs := Sparse.set Tcs.blank s.tcs (tcsKey s) t }

/-- `TCS.STATE <- ACTIVE` (40_enclu_eresume_checks.md R209). -/
def claimTcs (s : State) : State := setTcs s { tcsOf s with state := .active }

/-- `TCS.STATE <- INACTIVE` (41_enclu_eresume_commit.md R233). -/
def releaseTcs (s : State) : State := setTcs s { tcsOf s with state := .inactive }

/-- `XSAVE_SIZE` of a listed mask. -/
def findSize : List (Word × Word) → Word → Option Word
  | [], _ => none
  | (m, v) :: t, k => if m = k then some v else findSize t k

/-- `XSAVE_SIZE(xfrm)`, at least 536 (40_enclu_eresume_checks.md R186, D19); a mask the platform does not list has an
uninterpreted size (00_scope.md R8). -/
def xsaveSize (p : Platform) (xfrm : Word) : Word :=
  let v := (findSize p.xsaveSizes xfrm).getD (Config.xsaveSizeOther xfrm)
  if v < 536#64 then 536#64 else v

/-- Whether a code breakpoint over the `len` bytes from `lo` is suppressed (10_state.md R50;
41_enclu_eresume_commit.md R256, R257). -/
def codeBpSuppressed (s : State) (lo len : Nat) : Bool :=
  if overlapsElrange s.cr.elrange lo len then s.dbg.suppressCodeBpInElrange
  else s.dbg.suppressCodeBpOutsideElrange

/-- Whether a data breakpoint over the `len` bytes from `lo` is suppressed (10_state.md R50;
41_enclu_eresume_commit.md R257). -/
def dataBpSuppressed (s : State) (lo len : Nat) : Bool :=
  overlapsElrange s.cr.elrange lo len && s.dbg.suppressDataBpInElrange

/-- `FIXED_CTR1` and `FIXED_CTR2` go on counting (60_exceptions.md R318): their values after an execution are free
(U9, assumption 13). -/
def countFixed (draws : Nat) (p : PerfState) : PerfState :=
  { p with
    fixedCtr1 := Config.freeFixedCtr1 p.fixedCtr1 draws
    fixedCtr2 := Config.freeFixedCtr2 p.fixedCtr2 draws }

/-- What every execution of `ENCLU` to which the spec gives an outcome does beside its effect: the two counters go on
counting, and in the model's own bookkeeping the free values of this execution are used up and the oracle inputs of the
next one are free (assumptions 11, 13). -/
def tick (s : State) : State :=
  { s with perf := countFixed s.draws s.perf, draws := s.draws + 1, oracle := Config.freeOracle s.draws }

/-- What ERESUME raises (60_exceptions.md R290): `#GP(0)`, `#PF(la)`, or the fault `Translate` reported. -/
inductive Raised where
  | gp
  | pf (la : Word) (cause : PfCause)
  | delivered (f : DeliveredFault)
  deriving DecidableEq, Repr

/-- `raise`: the one operation that takes an exception (60_exceptions.md R301, 40_enclu_eresume_checks.md R153). The
step ends with the class, the error code (0 for `#GP`, R291; a free value for `#PF`, R296; 32 bits, assumption 18), the
address, and the state: `s`, which the caller has left as R300 says. -/
def raise (e : Raised) (s : State) : Host.Outcome State Fault Refusal :=
  match e with
  | .gp => .fault (.generalProtection 0#32 (tick s))
  | .pf la cause => .fault (.pageFault la (Config.pfErrorCode cause s.draws) (tick s))
  | .delivered f => .fault (.translationFault f (tick s))

/-- The linear address of byte `k` of the instruction at `CS:RIP` (20_memory.md R93). `RIP + k` wraps as an effective
address does, modulo 2^64 or 2^32; 10_state.md R24 gives no wrap-around rule for `RIP`, so this is the model's choice,
DESIGN CHOICE (assumption 5). -/
def fetchLinear (s : State) (k : Nat) : Word := linear (mode64 s) s.cs (ea (mode64 s) (s.rip + BitVec.ofNat 64 k))

/-- Fetch `n` bytes from byte `k` of the instruction on. -/
def fetchFrom (s : State) (k : Nat) : Nat → Except Refusal (List Byte)
  | 0 => .ok []
  | n + 1 =>
    match translateAddr s.plat (fetchLinear s k) .read with
    | .fault _ => .error (.fetchNotTranslated (fetchLinear s k))
    | .ok pa =>
      match fetchFrom s (k + 1) n with
      | .error r => .error r
      | .ok bs => .ok (Memory.get s.mem pa.toNat :: bs)

/-- Fetch the bytes of the longest instruction at `CS:RIP` (assumption 5). -/
def fetchBytes (s : State) : Except Refusal (List Byte) := fetchFrom s 0 maxInstrBytes

/-- The instruction at `CS:RIP`, or why there is none. -/
def fetchInstr (s : State) : Except Refusal Instr :=
  match fetchBytes s with
  | .error r => .error r
  | .ok bs =>
    match decode bs with
    | .ok (i, _) => .ok i
    | .error _ => .error (.encodingNotInSpec (bs.getD 0 0#8) (bs.getD 1 0#8) (bs.getD 2 0#8))

/-- The premises of 92_eei_decisions.md D24, met: privilege level 3, protected or IA-32e mode with paging, SGX enabled. -/
def premisesMet : Premises := { cpl := 3#2, mode := .protectedMode, paging := true, sgxEnabled := true }

/-- `s` with the page of `la` readable: a page that is not is mapped onto the frame of the same number. -/
def mapForFetch (s : State) (la : Word) : State :=
  match translateAddr s.plat la .read with
  | .ok _ => s
  | .fault _ =>
    let r := PageResult.ok (BitVec.ofNat 52 (pageNo la))
    { s with
      plat := { s.plat with
        xlat := { s.plat.xlat with
          pages := (pageNo la, { onRead := r, onWrite := r, onReadWrite := r }) :: s.plat.xlat.pages } } }

/-- The physical address a fetch at `la` reads. -/
def fetchPa (s : State) (la : Word) : Word :=
  match translateAddr s.plat la .read with
  | .ok pa => pa
  | .fault _ => 0#64

/-- Store bytes where the bytes from byte `k` of the next instruction are fetched. -/
def placeFrom (s : State) (k : Nat) : List Byte → State
  | [] => s
  | b :: bs =>
    let t := mapForFetch s (fetchLinear s k)
    placeFrom { t with mem := Memory.set t.mem (fetchPa t (fetchLinear t k)).toNat b } (k + 1) bs

/-- What system software and the caller have done before `ENCLU[ERESUME]` is reached (70_reset_and_hazards.md R344;
92_eei_decisions.md D24): the premises are met and `EAX = 3`, which selects the leaf (30_encoding.md R131). -/
def selectEresume (s : State) : State :=
  { s with
    prem := premisesMet
    plat := { s.plat with sgx1 := true }
    gpr := { s.gpr with rax := (s.gpr.rax &&& 0xFFFFFFFF00000000#64) ||| 3#64 } }

end Sys2Proof.Machine
end

