-- ==== Sys2Proof/Machine/EresumeTemps.lean ====
section
/-! DEFINITION. The temporaries of `ENCLU[ERESUME]` (40_enclu_eresume_checks.md R152), each a function of the state the
instruction begins in. -/

namespace Sys2Proof.Machine

open Sys2Proof.Config

/-- `TMP_SECS` (40_enclu_eresume_checks.md R177): the physical address of the SECS of the TCS. -/
def tmpSecs (s : State) : Word := (epcmAt s (tcsLinear s)).enclaveSecs

/-- The SECS at `TMP_SECS`, read by physical address (10_state.md R67). -/
def secsOf (s : State) : Secs := Sparse.get Secs.blank s.secs (tmpSecs s).toNat

/-- `4096 * SECS.SSAFRAMESIZE`: the size of one SSA frame in bytes (10_state.md R71). -/
def frameBytes (s : State) : Word := 4096#64 * (secsOf s).ssaframesize.setWidth 64

/-- `TMP_SSA` (40_enclu_eresume_checks.md R185). -/
def tmpSsa (s : State) : Word :=
  ea (mode64 s)
    ((tcsOf s).ossa + (secsOf s).baseaddr + frameBytes s * ((tcsOf s).cssa - 1#32).setWidth 64)

/-- `TMP_XSIZE` (40_enclu_eresume_checks.md R186). -/
def tmpXsize (s : State) : Word := xsaveSize s.plat (secsOf s).xfrm

/-- How many pages hold a byte of the `n` bytes from `a`. -/
def pageCount (a : Word) (n : Nat) : Nat := ((a.setWidth 12).toNat + n + 4095) / 4096

/-- The values of `TMP_SSA_PAGE` in the order of the loop (40_enclu_eresume_checks.md R187): the pages that hold a byte
of the XSAVE area. -/
def ssaPages (s : State) : List Word :=
  (List.range (pageCount (tmpSsa s) (tmpXsize s).toNat)).map fun i =>
    ea (mode64 s) (pageOf (tmpSsa s) + BitVec.ofNat 64 (4096 * i))

/-- `CR_XSAVE_PAGE_n` for `n = 1, 2, ...` (40_enclu_eresume_checks.md R194). -/
def xsavePagePas (s : State) : List Word := (ssaPages s).map fun p => paOf s (dsLinear s p)

/-- Byte `k` of the XSAVE area, at linear address `TMP_SSA + k` (41_enclu_eresume_commit.md R230). -/
def xsaveByte (s : State) (k : Nat) : Byte :=
  byteAt s (dsLinear s (ea (mode64 s) (tmpSsa s + BitVec.ofNat 64 k)))

/-- The bytes of the XSAVE area (41_enclu_eresume_commit.md R230). -/
def xsaveBytes (s : State) : List Byte := (List.range (tmpXsize s).toNat).map (xsaveByte s)

/-- The arguments of `XRSTOR(TMP_MODE64, SECS.ATTRIBUTES.XFRM, CR_XSAVE_PAGE_n)` (41_enclu_eresume_commit.md R230). -/
def xrstorArgs (s : State) : XrstorArgs :=
  { mode64 := mode64 s, xfrm := (secsOf s).xfrm, bytes := xsaveBytes s }

/-- The causes of XRSTOR failure the source gives (41_enclu_eresume_commit.md R231): a non-zero byte at offsets 520 to
535, or a bit vector at offset 512 that is no subset of `XFRM`. -/
def xrstorMustFail (s : State) : Bool :=
  ((List.range 16).any fun i => xsaveByte s (520 + i) != 0#8)
    || (let bv := leWord ((List.range 8).map fun i => xsaveByte s (512 + i))
        bv &&& (secsOf s).xfrm != bv)

/-- `XRSTOR_FAILS` (41_enclu_eresume_commit.md R231): true where the source forces it, and where the parameter says so. -/
def xrstorFails (s : State) : Bool := xrstorMustFail s || decide (xrstorArgs s ∈ s.plat.xrstorFailsAlso)

/-- `TMP_GPR` (40_enclu_eresume_checks.md R195). -/
def tmpGpr (s : State) : Word :=
  ea (mode64 s) (tmpSsa s + frameBytes s - BitVec.ofNat 64 s.plat.gprSize)

/-- The linear pages a check of this execution covers: those of the XSAVE loop and the page of `TMP_GPR`. -/
def checkedPages (s : State) : List Word :=
  pageOf (dsLinear s (tmpGpr s)) :: (ssaPages s).map fun p => pageOf (dsLinear s p)

/-- The linear address of byte `i` of the GPR-area field at offset `off`. -/
def gprByteLinear (s : State) (off i : Nat) : Word :=
  dsLinear s (ea (mode64 s) (tmpGpr s + BitVec.ofNat 64 (off + i)))

/-- Whether all eight bytes of a field of the GPR area lie on checked pages (93_implementation_defined.md U5). -/
def gprFieldChecked (s : State) (off : Nat) : Bool :=
  (List.range 8).all fun i => decide (pageOf (gprByteLinear s off i) ∈ checkedPages s)

/-- A field of the GPR area, 8 bytes at an offset from `TMP_GPR` (10_state.md R73, R74). -/
def gprField (s : State) (off : Nat) : Word :=
  leWord ((List.range 8).map fun i => byteAt s (gprByteLinear s off i))

/-- `TMP_TARGET` (40_enclu_eresume_checks.md R204). -/
def tmpTarget (s : State) : Word := ea (mode64 s) (gprField s s.plat.gprLayout.rip)

/-- `TMP_FSBASE` (40_enclu_eresume_checks.md R205, R208). -/
def tmpFsbase (s : State) : Word :=
  if mode64 s then gprField s s.plat.gprLayout.fsbase else low32 ((tcsOf s).ofsbase + (secsOf s).baseaddr)

/-- `TMP_GSBASE` (40_enclu_eresume_checks.md R205, R208). -/
def tmpGsbase (s : State) : Word :=
  if mode64 s then gprField s s.plat.gprLayout.gsbase else low32 ((tcsOf s).ogsbase + (secsOf s).baseaddr)

/-- `TMP_FSLIMIT` (40_enclu_eresume_checks.md R205), computed outside 64-bit mode only. -/
def tmpFslimit (s : State) : Word :=
  low32 ((tcsOf s).ofsbase + (secsOf s).baseaddr + (tcsOf s).fslimit.setWidth 64)

/-- `TMP_GSLIMIT` (40_enclu_eresume_checks.md R205), computed outside 64-bit mode only. -/
def tmpGslimit (s : State) : Word :=
  low32 ((tcsOf s).ogsbase + (secsOf s).baseaddr + (tcsOf s).gslimit.setWidth 64)

/-- The debug opt-in bit `TCS.FLAGS[0]` (10_state.md R61). -/
def optIn (s : State) : Bool := (tcsOf s).flags.getLsbD 0

end Sys2Proof.Machine
end

