-- ==== Sys2Proof/Machine/EresumeChecks.lean ====
section
/-! DEFINITION. The causes that end `ENCLU[ERESUME]` before its commit, as a list in ascending rule number: the first
that fires ends the instruction (00_scope.md R12, 60_exceptions.md R293, R298). -/

namespace Sys2Proof.Machine

open Sys2Proof.Config

/-- How a cause ends the instruction. -/
inductive Stop where
  | raised (e : Raised)
  | xrstorFailed
  | refuse (r : Refusal)
  deriving DecidableEq, Repr

/-- A cause: the number of its rule, its condition, how it ends the instruction. -/
structure Cause where
  rule : Nat
  fires : Bool
  stop : Stop
  deriving DecidableEq, Repr

/-- The first cause whose condition holds (00_scope.md R12). -/
def firstStop : List Cause → Option Stop
  | [] => none
  | c :: cs => if c.fires then some c.stop else firstStop cs

/-- A `#GP(0)` cause. -/
def gpCause (rule : Nat) (fires : Bool) : Cause := { rule := rule, fires := fires, stop := .raised .gp }

/-- A `#PF(la)` cause. -/
def pfCause (rule : Nat) (fires : Bool) (la : Word) (page : PfPage) (test : PfTest) : Cause :=
  { rule := rule, fires := fires, stop := .raised (.pf la { page := page, test := test }) }

/-- A cause to which the spec gives no meaning. -/
def refuseCause (rule : Nat) (fires : Bool) (r : Refusal) : Cause :=
  { rule := rule, fires := fires, stop := .refuse r }

/-- `CASE Translate(la, readwrite) OF fault(f): deliver f` (20_memory.md R95). -/
def xlatCause (rule : Nat) (s : State) (la : Word) : Cause :=
  match translateAddr s.plat la .readwrite with
  | .ok _ => gpCause rule false
  | .fault f => { rule := rule, fires := true, stop := .raised (.delivered f) }

/-- The leaf and the premises of every rule (30_encoding.md R135 to R137; 60_exceptions.md R310; D24). Their order is the
model's (assumption 20). -/
def premiseCauses (s : State) : List Cause :=
  [ refuseCause 137 (leaf s != 3#32) (.leafNotInSpec (leaf s)),
    refuseCause 136 (!s.plat.sgx1 || !s.prem.sgxEnabled) .sgxNotAvailable,
    refuseCause 135 (s.prem.mode != .protectedMode || !s.prem.paging) .modeNotInSpec,
    refuseCause 310 (s.prem.cpl != 3#2) .privilegeNotInSpec ]

/-- Mode and segment checks (40_enclu_eresume_checks.md R160 to R166). A base is compared with 0 in all its 64 bits:
R163 to R165 give the test no width, and 10_state.md R28 has 32 bits of a base used outside 64-bit mode, so this is the
model's choice, DESIGN CHOICE (assumption 40). -/
def modeCauses (s : State) : List Cause :=
  [ gpCause 160 s.cr.enclaveMode,
    gpCause 162 (!mode64 s && (s.ds.ar.unusable ||
      (s.ds.ar.s && !s.ds.ar.typ.getLsbD 3 && s.ds.ar.typ.getLsbD 2))),
    gpCause 163 (!mode64 s && (s.cs.base != 0#64 || s.ds.base != 0#64)),
    gpCause 164 (!mode64 s && !s.es.ar.unusable && s.es.base != 0#64),
    gpCause 165 (!mode64 s && !s.ss.ar.unusable && s.ss.base != 0#64),
    gpCause 166 (!mode64 s && !s.ss.ar.unusable && !s.ss.ar.b) ]

/-- The TCS address, the AEP and the TCS page (40_enclu_eresume_checks.md R167 to R174). -/
def tcsPageCauses (s : State) : List Cause :=
  let la := tcsLinear s
  let e := epcmAt s la
  [ gpCause 167 (!aligned4K la),
    xlatCause 168 s la,
    pfCause 168 (!inEpc s.plat (paOf s la)) la .tcs .notInEpc,
    gpCause 169 (mode64 s && !canonical s.plat.laBits (aepLinear s)),
    gpCause 170 s.oracle.tcsLockConflict,
    pfCause 171 (!e.valid) la .tcs .notValid,
    pfCause 172 e.blocked la .tcs .blocked,
    pfCause 173 (e.pending || e.modified) la .tcs .pendingOrModified,
    pfCause 174 (e.enclaveAddress != la || e.pt != .ptTcs) la .tcs .wrongPage ]

/-- `SECS.ATTRIBUTES.XFRM` is illegal (40_enclu_eresume_checks.md R183). -/
def xfrmIllegal (s : State) : Bool :=
  if osxsave s then (secsOf s).xfrm &&& s.xcr0 != (secsOf s).xfrm else (secsOf s).xfrm != 3#64

/-- The TCS fields, the SECS and the processor configuration, and `CSSA` (40_enclu_eresume_checks.md R175 to R184). -/
def configCauses (s : State) : List Cause :=
  [ gpCause 175 (!aligned4K (tcsOf s).ossa),
    gpCause 176 (!aligned4K (tcsOf s).ofsbase || !aligned4K (tcsOf s).ogsbase),
    gpCause 178 ((tcsOf s).flags &&& 0xFFFFFFFFFFFFFFFE#64 != 0#64),
    gpCause 179 s.oracle.secsBusy,
    gpCause 180 (!(secsOf s).init),
    gpCause 181 (mode64 s != (secsOf s).mode64bit),
    gpCause 182 (!osfxsr s),
    gpCause 183 (xfrmIllegal s),
    gpCause 184 ((tcsOf s).cssa == 0#32) ]

/-- The checks of one page of the SSA frame: `la` is the address checked and reported, `page` the page address its EPCM
entry must hold; `rule` is the number of the first of the six (40_enclu_eresume_checks.md R188 to R193, R196 to R201). -/
def ssaPageCauses (s : State) (rule : Nat) (kind : PfPage) (la page : Word) : List Cause :=
  let e := epcmAt s la
  [ xlatCause rule s la,
    pfCause (rule + 1) (!inEpc s.plat (paOf s la)) la kind .notInEpc,
    pfCause (rule + 2) (!e.valid) la kind .notValid,
    pfCause (rule + 3) e.blocked la kind .blocked,
    pfCause (rule + 4) (e.pending || e.modified) la kind .pendingOrModified,
    pfCause (rule + 5)
      (e.enclaveAddress != page || e.pt != .ptReg || e.enclaveSecs != tmpSecs s || !e.r || !e.w)
      la kind .wrongPage ]

/-- The loop over the pages of the XSAVE area (40_enclu_eresume_checks.md R187 to R193). -/
def xsaveCauses (s : State) : List Cause :=
  (ssaPages s).flatMap fun p => ssaPageCauses s 188 .xsave (dsLinear s p) (dsLinear s p)

/-- The page of the GPR area and its place in DS (40_enclu_eresume_checks.md R196 to R202). -/
def gprPageCauses (s : State) : List Cause :=
  ssaPageCauses s 196 .gpr (dsLinear s (tmpGpr s)) (pageOf (dsLinear s (tmpGpr s))) ++
  [ gpCause 202 (!mode64 s &&
      decide (low32 (tmpGpr s + BitVec.ofNat 64 s.plat.gprSize - 1#64) > s.ds.limit.setWidth 64)) ]

/-- A proposed FS or GS is not within DS (40_enclu_eresume_checks.md R206, R207, D12). -/
def outsideDs (s : State) (base limit : Word) : Bool :=
  if limit < base then decide (s.ds.limit < 0xFFFFFFFF#32) else decide (limit > s.ds.limit.setWidth 64)

/-- The resume address and the proposed FS and GS (40_enclu_eresume_checks.md R204 to R208); a field of the GPR area on
an unchecked page is refused where it is read (93_implementation_defined.md U5). -/
def targetCauses (s : State) : List Cause :=
  [ refuseCause 204 (!gprFieldChecked s s.plat.gprLayout.rip) .gprAreaUnchecked,
    gpCause 204 (if mode64 s then !canonical s.plat.laBits (tmpTarget s)
      else decide (tmpTarget s > s.cs.limit.setWidth 64)),
    gpCause 206 (!mode64 s && outsideDs s (tmpFsbase s) (tmpFslimit s)),
    gpCause 207 (!mode64 s && outsideDs s (tmpGsbase s) (tmpGslimit s)),
    refuseCause 208 (mode64 s && (!gprFieldChecked s s.plat.gprLayout.fsbase ||
      !gprFieldChecked s s.plat.gprLayout.gsbase)) .gprAreaUnchecked,
    gpCause 208 (mode64 s && (!canonical s.plat.laBits (tmpFsbase s) ||
      !canonical s.plat.laBits (tmpGsbase s))) ]

/-- The offsets in the GPR area that the commit reads: `RFLAGS` and every register that has one (10_state.md R73). -/
def commitOffsets (p : Platform) : List Nat :=
  p.gprLayout.rflags ::
    [Reg.rax, .rcx, .rdx, .rbx, .rsp, .rbp, .rsi, .rdi, .r8, .r9, .r10, .r11, .r12, .r13, .r14, .r15].filterMap
      (readReg p.gprLayout.reg)

/-- Claiming the TCS (40_enclu_eresume_checks.md R209), XRSTOR (41_enclu_eresume_commit.md R233), and the fields of the
GPR area that the commit reads (93_implementation_defined.md U5). -/
def claimCauses (s : State) : List Cause :=
  [ gpCause 209 ((tcsOf s).state == .active),
    { rule := 233, fires := xrstorFails s, stop := .xrstorFailed },
    refuseCause 243 (!(commitOffsets s.plat).all (gprFieldChecked s)) .gprAreaUnchecked ]

/-- Every cause, in the order of evaluation (60_exceptions.md R293). -/
def eresumeCauses (s : State) : List Cause :=
  premiseCauses s ++ modeCauses s ++ tcsPageCauses s ++ configCauses s ++ xsaveCauses s ++ gprPageCauses s ++
    targetCauses s ++ claimCauses s

/-- How a stop ends the step. On XRSTOR failure the claim of the TCS is undone and the extended state is a free value
(41_enclu_eresume_commit.md R233, U2); every other stop leaves the state as it was (60_exceptions.md R300), but for what
`tick` says. -/
def stopOutcome (s : State) : Stop → Host.Outcome State Fault Refusal
  | .raised e => raise e s
  | .xrstorFailed => raise .gp { releaseTcs (claimTcs s) with xstate := Config.freeXState (xrstorArgs s) s.xstate s.draws }
  | .refuse r => .refused r

end Sys2Proof.Machine
end

