-- ==== Sys2Proof/Machine/EresumeCommit.lean ====
section
/-! DEFINITION. The state updates of a successful `ENCLU[ERESUME]` (41_enclu_eresume_commit.md R232 to R264): each new
value is a function of the state the instruction began in, and all are made at once (R263). -/

namespace Sys2Proof.Machine

open Sys2Proof.Config

/-- `Restore_GPRs` (41_enclu_eresume_commit.md R243, D21): every register with an offset, the whole container. -/
def restoredGprs (s : State) : RegFile Word :=
  buildRegs fun r =>
    match readReg s.plat.gprLayout.reg r with
    | some off => gprField s off
    | none => readReg s.gpr r

/-- The saved `RFLAGS`, `GPRA.RFLAGS` (10_state.md R74). -/
def savedRflags (s : State) : Word := gprField s s.plat.gprLayout.rflags

/-- `RFLAGS` after the commit (41_enclu_eresume_commit.md R244 to R249, R257). -/
def newRflags (s : State) : Word := mergeRflags s.rflags (savedRflags s) (optIn s)

/-- The access rights of the new FS and GS (41_enclu_eresume_commit.md R253, R254, D28): `type <- 0001b`, then
`W <- DS.W`. -/
def newSegRights (s : State) : AccessRights :=
  { typ := if segW s.ds.ar then 3#4 else 1#4
    s := true
    dpl := s.ds.ar.dpl
    p := true
    avl := s.ds.ar.avl
    l := s.ds.ar.l
    b := true
    g := true
    unusable := false }

/-- The new FS (41_enclu_eresume_commit.md R252, R253). -/
def newFs (s : State) : Segment :=
  { selector := 0x000B#16, base := tmpFsbase s, limit := (tcsOf s).fslimit, ar := newSegRights s }

/-- The new GS (41_enclu_eresume_commit.md R252, R254). -/
def newGs (s : State) : Segment :=
  { selector := 0x000B#16, base := tmpGsbase s, limit := (tcsOf s).gslimit, ar := newSegRights s }

/-- `TF_SAVED` (41_enclu_eresume_commit.md R257, D7): the value that `CR_SAVE_TF` receives on opt-out entry. -/
def tfSaved (s : State) : Bool :=
  match s.plat.saveTf with
  | .operationOrder => false
  | .prose => flag s.rflags .tf

/-- The `CR_*` registers after the commit (41_enclu_eresume_commit.md R234 to R241, R250, R255, R257;
40_enclu_eresume_checks.md R194, R203). -/
def newCr (s : State) : CrRegs :=
  { enclaveMode := true
    activeSecs := tmpSecs s
    elrange := { base := (secsOf s).baseaddr, size := (secsOf s).size }
    tcsPa := paOf s (tcsLinear s)
    tcsLa := tcsOffset s
    gprPa := paOf s (dsLinear s (tmpGpr s))
    xsavePages := xsavePagePas s
    saveFs := s.fs
    saveGs := s.gs
    saveXcr0 := if osxsave s then s.xcr0 else s.cr.saveXcr0
    saveTf := if optIn s then s.cr.saveTf else tfSaved s
    dbgOptIn := optIn s }

/-- The debug state after the commit (41_enclu_eresume_commit.md R256 to R258). An opt-in entry leaves the two bits for
breakpoints in ELRANGE as they were, as the pseudocode of R258 writes none; its prose, that such breakpoints are not
suppressed, would clear a bit that is already 1. DESIGN CHOICE (assumption 41). -/
def newDbg (s : State) : DebugState :=
  { suppressCodeBpOutsideElrange := true
    suppressCodeBpInElrange := if optIn s then s.dbg.suppressCodeBpInElrange else true
    suppressDataBpInElrange := if optIn s then s.dbg.suppressDataBpInElrange else true
    pendingDbg := if optIn s && flag s.rflags .tf then [.singleStep] else []
    pendingMtfVmexit := false
    suppressMtfVmexit := if optIn s then s.dbg.suppressMtfVmexit else true }

/-- The performance-monitoring state after the commit, the counting of `FIXED_CTR1` and `FIXED_CTR2` apart
(60_exceptions.md R318, R319, R321, R322). -/
def newPerf (s : State) : PerfState :=
  if optIn s then s.perf
  else
    { s.perf with
      perfmonSuppressed := true
      pebsSuppressed := true
      globalStatus :=
        if s.oracle.perfmonSuppressedAny then withBit (withBit s.perf.globalStatus 60 true) 63 true
        else s.perf.globalStatus }

/-- What an opt-out entry does to another hardware thread (60_exceptions.md R320). -/
def demoteSibling (t : Sibling) : Sibling :=
  if t.countsAnyThread then
    { t with anyThreadDemoted := true, perfGlobalStatus := withBit t.perfGlobalStatus 60 true }
  else t

/-- The other hardware threads after the commit (60_exceptions.md R320, R322). -/
def newSiblings (s : State) : List Sibling := if optIn s then s.siblings else s.siblings.map demoteSibling

/-- The TCS after the commit: `STATE` claimed (40_enclu_eresume_checks.md R209), `AEP <- RCX` (41_enclu_eresume_commit.md
R239), `CSSA <- CSSA - 1` (R251). -/
def newTcs (s : State) : Tcs :=
  { tcsOf s with state := .active, aep := aepOffset s, cssa := (tcsOf s).cssa - 1#32 }

/-- The state after a successful ERESUME, in full (41_enclu_eresume_commit.md R264). -/
def commit (s : State) : State :=
  { s with
    rip := tmpTarget s
    gpr := restoredGprs s
    rflags := newRflags s
    xstate := Config.xrstorLoad (xrstorArgs s)
    xcr0 := if osxsave s then (secsOf s).xfrm else s.xcr0
    fs := newFs s
    gs := newGs s
    cr := newCr s
    dbg := newDbg s
    perf := countFixed s.draws (newPerf s)
    siblings := newSiblings s
    tlb := []
    monitorArmed := false
    lbr := Config.freeLbrStack { source := s.rip, target := tmpTarget s } s.lbr s.draws
    tcs := (setTcs s (newTcs s)).tcs
    draws := (tick s).draws
    oracle := (tick s).oracle }

end Sys2Proof.Machine
end

