-- ==== Sys2Proof/Machine/Enclu.lean ====
section
/-! DEFINITION. The meaning of `ENCLU` (40_enclu_eresume_checks.md R150). -/

namespace Sys2Proof.Machine

/-- `ENCLU[ERESUME]` (40_enclu_eresume_checks.md R150): the first cause that fires ends the instruction, and when none
does the commit is made. -/
def execEnclu (s : State) : Host.Outcome State Fault Refusal :=
  match firstStop (eresumeCauses s) with
  | some st => stopOutcome s st
  | none => .next (commit s)

end Sys2Proof.Machine
end

