-- ==== Sys2Proof/Machine/Step.lean ====
section
/-! DEFINITION. One step: fetch the instruction at `CS:RIP`, decode it and execute it. -/

namespace Sys2Proof.Machine

/-- One step. Instruction fetch is not described by the spec (70_reset_and_hazards.md R352; assumption 5): the bytes
at `CS:RIP` are read through `Translate`. -/
def step (s : State) : Host.Outcome State Fault Refusal :=
  match fetchInstr s with
  | .error r => .refused r
  | .ok i => exec i s

/-- `s` with the instruction whose bits the opcode table numbers as `w` stored where `step` fetches, reached as the
spec's premises have it and with the leaf selected (assumption 12). -/
def State.withFetchWord (s : State) (nbits w : Nat) : State :=
  placeFrom (selectEresume s) 0 (tableBytes nbits w)

end Sys2Proof.Machine
end

