-- ==== Sys2Proof/Safety.lean ====
section
/-! DEFINITION. The terms in which claims speak of the machine: the conditions of 40_enclu_eresume_checks.md R210 in
the spec's words, group by group in the order of evaluation; the invariant of the state; what a fault leaves. -/

namespace Sys2Proof.Machine

open Sys2Proof.Config

/-- `EAX = 3` selects ERESUME and the premises of every rule hold (30_encoding.md R131, R135, R136; 60_exceptions.md
R310; D24). -/
structure Admitted (s : State) : Prop where
  leafSelected : leaf s = 3#32
  sgx1Present : s.plat.sgx1 = true
  sgxEnabled : s.prem.sgxEnabled = true
  protectedMode : s.prem.mode = .protectedMode
  paging : s.prem.paging = true
  privilege3 : s.prem.cpl = 3#2

/-- DS holds an expand-down data segment: `S = 1`, bit 11 clear, bit 10 set (40_enclu_eresume_checks.md R162). -/
def DsExpandDown (s : State) : Prop :=
  s.ds.ar.s = true ∧ s.ds.ar.typ.getLsbD 3 = false ∧ s.ds.ar.typ.getLsbD 2 = true

/-- R160 to R166 of 40_enclu_eresume_checks.md pass, a base compared in all its 64 bits (log entry 40). -/
structure ModeOk (s : State) : Prop where
  notInEnclave : s.cr.enclaveMode = false
  dsUsable : mode64 s = false → s.ds.ar.unusable = false ∧ ¬ DsExpandDown s
  codeDataFlat : mode64 s = false → s.cs.base = 0#64 ∧ s.ds.base = 0#64
  esFlat : mode64 s = false → s.es.ar.unusable = false → s.es.base = 0#64
  ssFlat : mode64 s = false → s.ss.ar.unusable = false → s.ss.base = 0#64
  ssBig : mode64 s = false → s.ss.ar.unusable = false → s.ss.ar.b = true

/-- `DS:RBX` is aligned and resolves within the EPC (R167, R168). -/
structure TcsResolves (s : State) : Prop where
  aligned : aligned4K (tcsLinear s) = true
  translated : ∃ pa, translateAddr s.plat (tcsLinear s) .readwrite = .ok pa
  inEpc : inEpc s.plat (paOf s (tcsLinear s)) = true

/-- The AEP is canonical in 64-bit mode (R169). -/
def AepOk (s : State) : Prop := mode64 s = true → canonical s.plat.laBits (aepLinear s) = true

/-- The EPCM entry of the TCS page (R171 to R174). -/
structure TcsEntryOk (s : State) : Prop where
  valid : (epcmAt s (tcsLinear s)).valid = true
  notBlocked : (epcmAt s (tcsLinear s)).blocked = false
  notPending : (epcmAt s (tcsLinear s)).pending = false
  notModified : (epcmAt s (tcsLinear s)).modified = false
  address : (epcmAt s (tcsLinear s)).enclaveAddress = tcsLinear s
  pageType : (epcmAt s (tcsLinear s)).pt = .ptTcs

/-- R167 to R174 of 40_enclu_eresume_checks.md pass. -/
structure TcsPageOk (s : State) : Prop where
  resolves : TcsResolves s
  aep : AepOk s
  noConflict : s.oracle.tcsLockConflict = false
  entry : TcsEntryOk s

/-- R175 to R184 of 40_enclu_eresume_checks.md pass. -/
structure ConfigOk (s : State) : Prop where
  ossaAligned : aligned4K (tcsOf s).ossa = true
  fsAligned : aligned4K (tcsOf s).ofsbase = true
  gsAligned : aligned4K (tcsOf s).ogsbase = true
  flagsReserved : ∀ i, 1 ≤ i → i < 64 → (tcsOf s).flags.getLsbD i = false
  secsFree : s.oracle.secsBusy = false
  initialized : (secsOf s).init = true
  modeMatches : mode64 s = (secsOf s).mode64bit
  osfxsrSet : osfxsr s = true
  xfrmWithoutXsave : osxsave s = false → (secsOf s).xfrm = 3#64
  xfrmWithXsave : osxsave s = true → (secsOf s).xfrm &&& s.xcr0 = (secsOf s).xfrm
  frameActive : (tcsOf s).cssa ≠ 0#32

/-- The EPCM entry of an SSA page: valid, not blocked, pending or modified, `PT_REG`, at its own address, of the TCS's
enclave, readable and writable (R190 to R193, R198 to R201). -/
structure SsaEntryOk (s : State) (la page : Word) : Prop where
  valid : (epcmAt s la).valid = true
  notBlocked : (epcmAt s la).blocked = false
  notPending : (epcmAt s la).pending = false
  notModified : (epcmAt s la).modified = false
  address : (epcmAt s la).enclaveAddress = page
  pageType : (epcmAt s la).pt = .ptReg
  sameEnclave : (epcmAt s la).enclaveSecs = (epcmAt s (tcsLinear s)).enclaveSecs
  readable : (epcmAt s la).r = true
  writable : (epcmAt s la).w = true

/-- An SSA page is read/write accessible, in the EPC, and its EPCM entry passes (R188 to R193, R196 to R201). -/
structure SsaPageOk (s : State) (la page : Word) : Prop where
  translated : ∃ pa, translateAddr s.plat la .readwrite = .ok pa
  inEpc : inEpc s.plat (paOf s la) = true
  entry : SsaEntryOk s la page

/-- Every page of the XSAVE area passes (R187 to R194). -/
def XsavePagesOk (s : State) : Prop := ∀ p ∈ ssaPages s, SsaPageOk s (dsLinear s p) (dsLinear s p)

/-- The page of the GPR area passes (R196 to R201). -/
def GprPageOk (s : State) : Prop := SsaPageOk s (dsLinear s (tmpGpr s)) (pageOf (dsLinear s (tmpGpr s)))

/-- Outside 64-bit mode the last byte of the GPR area lies within DS (R202). -/
def GprInDs (s : State) : Prop :=
  mode64 s = false → (low32 (tmpGpr s + BitVec.ofNat 64 s.plat.gprSize - 1#64)).toNat ≤ s.ds.limit.toNat

/-- Every check up to R202 passes. -/
structure FrameOk (s : State) : Prop where
  admitted : Admitted s
  mode : ModeOk s
  tcsPage : TcsPageOk s
  config : ConfigOk s
  xsavePages : XsavePagesOk s
  gprPage : GprPageOk s
  gprInDs : GprInDs s

/-- The saved `RIP` may be the resume address (R204). -/
structure TargetOk (s : State) : Prop where
  canonical64 : mode64 s = true → canonical s.plat.laBits (tmpTarget s) = true
  withinCs : mode64 s = false → (tmpTarget s).toNat ≤ s.cs.limit.toNat

/-- A proposed segment from `base` to `limit`, both linear addresses, is within DS (R206, R207): DS spans all 4 GBytes
if it wraps, and its top is within DS if it does not. -/
def WithinDs (s : State) (base limit : Word) : Prop :=
  if limit.toNat < base.toNat then s.ds.limit.toNat = 0xFFFFFFFF else limit.toNat ≤ s.ds.limit.toNat

/-- The proposed FS and GS pass (R206 to R208). -/
structure SegmentsOk (s : State) : Prop where
  fsWithin : mode64 s = false → WithinDs s (tmpFsbase s) (tmpFslimit s)
  gsWithin : mode64 s = false → WithinDs s (tmpGsbase s) (tmpGslimit s)
  fsCanonical : mode64 s = true → canonical s.plat.laBits (tmpFsbase s) = true
  gsCanonical : mode64 s = true → canonical s.plat.laBits (tmpGsbase s) = true

/-- The fields of the GPR area that the checks read lie on checked pages (93_implementation_defined.md U5). -/
structure CheckFieldsReadable (s : State) : Prop where
  rip : gprFieldChecked s s.plat.gprLayout.rip = true
  fsbase : mode64 s = true → gprFieldChecked s s.plat.gprLayout.fsbase = true
  gsbase : mode64 s = true → gprFieldChecked s s.plat.gprLayout.gsbase = true

/-- The fields of the GPR area that the commit reads lie on checked pages (93_implementation_defined.md U5). -/
structure CommitFieldsReadable (s : State) : Prop where
  rflags : gprFieldChecked s s.plat.gprLayout.rflags = true
  gprs : ∀ r off, readReg s.plat.gprLayout.reg r = some off → gprFieldChecked s off = true

/-- Every check of 40_enclu_eresume_checks.md passes, R160 to R209 (R210). -/
structure ChecksPass (s : State) : Prop where
  frame : FrameOk s
  fields : CheckFieldsReadable s
  target : TargetOk s
  segments : SegmentsOk s
  inactive : (tcsOf s).state = .inactive

/-- ERESUME enters the enclave: every check passes, XRSTOR does not fail, and the GPR area is readable. -/
structure Resumable (s : State) : Prop where
  checks : ChecksPass s
  xrstor : xrstorFails s = false
  readable : CommitFieldsReadable s

/-- The state a fault leaves (60_exceptions.md R300). -/
def Fault.after : Fault → State
  | .generalProtection _ t => t
  | .pageFault _ _ t => t
  | .translationFault _ t => t

/-- Two states agree on everything but the values of `FIXED_CTR1` and `FIXED_CTR2`, of which the spec admits no statement
(U9, log entry 13), and the model's own bookkeeping: the draw counter and the next oracle inputs (log entry 11). -/
def SameMachine (s t : State) : Prop :=
  t = { s with
    perf := { s.perf with fixedCtr1 := t.perf.fixedCtr1, fixedCtr2 := t.perf.fixedCtr2 }
    draws := t.draws
    oracle := t.oracle }

/-- The outcome `#GP(0)` with the state as it was (60_exceptions.md R291, R300). -/
def EndsInGp (s : State) : Prop :=
  ∃ t, exec .enclu s = .fault (.generalProtection 0#32 t) ∧ SameMachine s t

/-- The outcome `#PF(la)` with the state as it was, whatever the error code (60_exceptions.md R292, R296, R300). -/
def EndsInPf (s : State) (la : Word) : Prop :=
  ∃ code t, exec .enclu s = .fault (.pageFault la code t) ∧ SameMachine s t

/-- The fault `f` of `Translate` delivered unchanged, with the state as it was (60_exceptions.md R297, R300). -/
def EndsInTranslationFault (s : State) (f : DeliveredFault) : Prop :=
  ∃ t, exec .enclu s = .fault (.translationFault f t) ∧ SameMachine s t

/-- Every sparse table of the state is in canonical form. -/
structure Canonical (s : State) : Prop where
  mem : Memory.wf s.mem = true
  tcs : Sparse.wf Tcs.blank s.tcs = true
  secs : Sparse.wf Secs.blank s.secs = true
  epcm : Sparse.wf EpcmEntry.blank s.epcm = true

/-- What holds of a processor in enclave mode after ERESUME: its TCS is `ACTIVE` and in the EPC, `VM` is clear, `TF` is
clear unless the entry was opt-in, the address monitor is disarmed and breakpoints outside ELRANGE are suppressed
(10_state.md R37 to R54). -/
structure InEnclave (s : State) : Prop where
  tcsActive : (Sparse.get Tcs.blank s.tcs (pageNo s.cr.tcsPa)).state = .active
  tcsInEpc : inEpc s.plat s.cr.tcsPa = true
  xsavePagesInEpc : ∀ pa ∈ s.cr.xsavePages, inEpc s.plat pa = true
  vmClear : flag s.rflags .vm = false
  tfClear : s.cr.dbgOptIn = false → flag s.rflags .tf = false
  monitorClear : s.monitorArmed = false
  outsideSuppressed : s.dbg.suppressCodeBpOutsideElrange = true

/-- The invariant: canonical tables, the fixed bits of `RFLAGS` as R26 of 10_state.md has them, and what enclave mode
means. -/
structure Inv (s : State) : Prop where
  canonical : Canonical s
  rflags : rflagsFixed s.rflags = true
  enclave : s.cr.enclaveMode = true → InEnclave s

end Sys2Proof.Machine
end

