-- ==== Sys2Proof/Certificates/Slice0/Obligations.lean ====
section
/-! DEFINITION. The statements for the provers, in the order of spec/: encoding and the step, when ERESUME enters, when
and how it faults, what it leaves, what it makes of each piece of state, its addresses, and the invariant. -/

open Sys2Proof Sys2Proof.Machine

/-! ### Encoding and the step -/

/-- The bytes of `ENCLU` (general knowledge, 30_encoding.md R132; log entry 3) decode to it, from memory order and from
the number the opcode table gives the row (log entry 4). -/
def Obligations.EncluBytesDecode : Prop :=
  decode [0x0F#8, 0x01#8, 0xD7#8] = .ok (.enclu, []) ∧ decodeTableWord 24 0x0F01D7 = some .enclu ∧
    encode .enclu = [0x0F#8, 0x01#8, 0xD7#8]

/-- Decoding accepts exactly the encodings, whatever follows them (the model's choice of bytes: log entry 3). -/
def Obligations.DecodeAcceptsExactlyTheEncodings : Prop :=
  ∀ (bs : List Byte) (i : Instr) (rest : List Byte), decode bs = .ok (i, rest) ↔ bs = encode i ++ rest

/-- A prefixed form is rejected (30_encoding.md R138: "The spec admits only the unprefixed form.", D3). -/
def Obligations.PrefixedFormsAreRejected : Prop :=
  ∀ b ∈ [0x66#8, 0x67#8, 0xF2#8, 0xF3#8, 0xF0#8, 0x26#8, 0x2E#8, 0x36#8, 0x3E#8, 0x64#8, 0x65#8],
    ∀ rest : List Byte, decode (b :: rest) = .error (.prefixed b)

/-- When the bytes at `CS:RIP` are the encoding of `i`, a step is `exec i` (instruction fetch is the model's: log entry
5). -/
def Obligations.StepRunsTheDecodedInstruction : Prop :=
  ∀ (s : State) (i : Instr),
    (∀ k, k < (encode i).length → ∃ pa, translateAddr s.plat (fetchLinear s k) .read = .ok pa ∧
      Memory.get s.mem pa.toNat = (encode i).getD k 0#8) →
    step s = exec i s

/-- `ENCLU` with another leaf number has no meaning (R137). -/
def Obligations.OtherLeavesAreRefused : Prop :=
  ∀ s : State, leaf s ≠ 3#32 → exec .enclu s = .refused (.leafNotInSpec (s.gpr.rax.setWidth 32))

/-- Bits 63:32 of `RAX` are not consulted (30_encoding.md R131, decision D23). -/
def Obligations.UpperHalfOfRaxIsNotConsulted : Prop :=
  ∀ (s : State) (v : Word), v.setWidth 32 = s.gpr.rax.setWidth 32 →
    ((∃ t, exec .enclu s = .next t) ↔ ∃ t, exec .enclu { s with gpr := { s.gpr with rax := v } } = .next t)

/-- Outside the premises of decision D24 the spec gives no meaning, and the model refuses by name. Which name a state
with several premises unmet is refused under, the order of the three tests, is the model's choice (log entry 20). -/
def Obligations.PremisesUnmetAreRefused : Prop :=
  ∀ s : State, leaf s = 3#32 →
    ((s.plat.sgx1 = false ∨ s.prem.sgxEnabled = false) → exec .enclu s = .refused .sgxNotAvailable) ∧
    (s.plat.sgx1 = true → s.prem.sgxEnabled = true →
      ((s.prem.mode ≠ .protectedMode ∨ s.prem.paging = false) → exec .enclu s = .refused .modeNotInSpec) ∧
      (s.prem.mode = .protectedMode → s.prem.paging = true → s.prem.cpl ≠ 3#2 →
        exec .enclu s = .refused .privilegeNotInSpec))

/-! ### When ERESUME enters the enclave -/

/-- ERESUME enters the enclave exactly when every check passes and XRSTOR does not fail (R210); the readability of
the GPR area is U5, and that a base is compared in all its 64 bits is the model's choice (log entry 40). -/
def Obligations.EntersExactlyWhenResumable : Prop :=
  ∀ s : State, (∃ t, exec .enclu s = .next t) ↔ Resumable s

/-- The model refuses only where the spec gives no meaning: another leaf, unmet premises (D24), or GPR-area bytes on an
unchecked page (U5). -/
def Obligations.RefusesOnlyOutsideTheSpec : Prop :=
  ∀ (s : State) (r : Refusal), exec .enclu s = .refused r →
    ¬ Admitted s ∨
      (FrameOk s ∧ r = .gprAreaUnchecked ∧ ¬ (CheckFieldsReadable s ∧ CommitFieldsReadable s))

/-! ### How ERESUME faults -/

/-- In enclave mode, or with DS unusable or expand-down outside 64-bit mode, ERESUME raises `#GP(0)` (the placing of the
first is decision D8, the reading of DS's bits D33). -/
def Obligations.EnclaveModeAndBadDsRaiseGp : Prop :=
  ∀ s : State, Admitted s →
    (s.cr.enclaveMode = true ∨ (mode64 s = false ∧ (s.ds.ar.unusable = true ∨ DsExpandDown s))) → EndsInGp s

/-- Outside 64-bit mode segments that are not flat, or a 16-bit stack, raise `#GP(0)` (R163 to R166); in 64-bit mode the
bases of CS and DS, and all of ES and SS, do not matter (that a linear address there does not use the bases is general
knowledge, R93, log entry 27). That a base is compared in all its 64 bits is the model's choice (log entry 40). -/
def Obligations.SegmentBasesRaiseGp : Prop :=
  (∀ s : State, Admitted s → mode64 s = false →
    (s.cs.base ≠ 0#64 ∨ s.ds.base ≠ 0#64 ∨ (s.es.ar.unusable = false ∧ s.es.base ≠ 0#64) ∨
      (s.ss.ar.unusable = false ∧ s.ss.base ≠ 0#64) ∨ (s.ss.ar.unusable = false ∧ s.ss.ar.b = false)) →
    EndsInGp s) ∧
  (∀ (s : State) (csBase dsBase : Word) (es ss : Segment), mode64 s = true →
    ((∃ t, exec .enclu s = .next t) ↔
      ∃ t, exec .enclu
        { s with cs := { s.cs with base := csBase }, ds := { s.ds with base := dsBase }, es := es, ss := ss } =
          .next t))

/-- A TCS address that is not 4 KByte aligned raises `#GP(0)` (R167). -/
def Obligations.MisalignedTcsRaisesGp : Prop :=
  ∀ s : State, Admitted s →
    (aligned4K (tcsLinear s) = false → EndsInGp s) ∧
    (ModeOk s → s.gpr.rbx.setWidth 12 ≠ 0#12 → EndsInGp s)

/-- A TCS address that does not translate delivers that fault; one that does not resolve within the EPC raises
`#PF(DS:RBX)` (R168). -/
def Obligations.TcsOutsideEpcFaults : Prop :=
  ∀ s : State, Admitted s → ModeOk s → aligned4K (tcsLinear s) = true →
    (∀ f, translateAddr s.plat (tcsLinear s) .readwrite = .fault f → EndsInTranslationFault s f) ∧
    (∀ pa, translateAddr s.plat (tcsLinear s) .readwrite = .ok pa → inEpc s.plat pa = false →
      EndsInPf s (tcsLinear s))

/-- A non-canonical AEP raises `#GP(0)` in 64-bit mode; outside it the AEP is not checked at all (R169). -/
def Obligations.NonCanonicalAepRaisesGp : Prop :=
  (∀ s : State, Admitted s → ModeOk s → TcsResolves s → mode64 s = true →
    canonical s.plat.laBits s.gpr.rcx = false → EndsInGp s) ∧
  (∀ (s : State) (v : Word), mode64 s = false →
    ((∃ t, exec .enclu s = .next t) ↔ ∃ t, exec .enclu { s with gpr := { s.gpr with rcx := v } } = .next t))

/-- The oracle inputs `TCS_LOCK_CONFLICT` and `SECS_BUSY` raise `#GP(0)` where the spec's decisions D15 and D14 place
them. -/
def Obligations.OracleConflictsRaiseGp : Prop :=
  ∀ s : State, Admitted s → ModeOk s →
    (TcsResolves s → AepOk s → s.oracle.tcsLockConflict = true → EndsInGp s) ∧
    (TcsPageOk s → s.oracle.secsBusy = true → EndsInGp s)

/-- A TCS page whose EPCM entry fails a test raises `#PF(DS:RBX)` (R171 to R174). -/
def Obligations.BadTcsEntryRaisesPf : Prop :=
  ∀ s : State, Admitted s → ModeOk s → TcsResolves s → AepOk s → s.oracle.tcsLockConflict = false →
    ((epcmAt s (tcsLinear s)).valid = false ∨ (epcmAt s (tcsLinear s)).blocked = true ∨
      (epcmAt s (tcsLinear s)).pending = true ∨ (epcmAt s (tcsLinear s)).modified = true ∨
      (epcmAt s (tcsLinear s)).enclaveAddress ≠ tcsLinear s ∨ (epcmAt s (tcsLinear s)).pt ≠ .ptTcs) →
    EndsInPf s (tcsLinear s)

/-- Unaligned `OSSA`, `OFSBASE` or `OGSBASE`, or a reserved bit of `TCS.FLAGS`, raises `#GP(0)` (R175, R176, R178). -/
def Obligations.BadTcsFieldsRaiseGp : Prop :=
  ∀ s : State, Admitted s → ModeOk s → TcsPageOk s →
    ((tcsOf s).ossa.setWidth 12 ≠ 0#12 ∨ (tcsOf s).ofsbase.setWidth 12 ≠ 0#12 ∨
      (tcsOf s).ogsbase.setWidth 12 ≠ 0#12 ∨ (tcsOf s).flags &&& 0xFFFFFFFFFFFFFFFE#64 ≠ 0#64) →
    EndsInGp s

/-- An enclave not initialized, a mode that does not match, `CR4.OSFXSR = 0` or an illegal `XFRM` raises `#GP(0)`
(R180 to R183). -/
def Obligations.BadConfigurationRaisesGp : Prop :=
  ∀ s : State, Admitted s → ModeOk s → TcsPageOk s →
    ((secsOf s).init = false ∨ mode64 s ≠ (secsOf s).mode64bit ∨ osfxsr s = false ∨
      (osxsave s = false ∧ (secsOf s).xfrm ≠ 3#64) ∨
      (osxsave s = true ∧ (secsOf s).xfrm &&& s.xcr0 ≠ (secsOf s).xfrm)) →
    EndsInGp s

/-- With no active SSA frame ERESUME raises `#GP(0)` (R184). -/
def Obligations.NoActiveFrameRaisesGp : Prop :=
  ∀ s : State, Admitted s → ModeOk s → TcsPageOk s → (tcsOf s).cssa = 0#32 → EndsInGp s

/-- The first page of the XSAVE area that fails decides: its translation fault, or `#PF` at the page (R188 to R193; the
pages of the loop and their order are decision D10). -/
def Obligations.XsavePageFaults : Prop :=
  ∀ (s : State) (before after : List Word) (p : Word), Admitted s → ModeOk s → TcsPageOk s → ConfigOk s →
    ssaPages s = before ++ p :: after →
    (∀ q ∈ before, SsaPageOk s (dsLinear s q) (dsLinear s q)) →
    (∀ f, translateAddr s.plat (dsLinear s p) .readwrite = .fault f → EndsInTranslationFault s f) ∧
    (∀ pa, translateAddr s.plat (dsLinear s p) .readwrite = .ok pa →
      (inEpc s.plat pa = false ∨ (epcmAt s (dsLinear s p)).valid = false ∨
        (epcmAt s (dsLinear s p)).blocked = true ∨ (epcmAt s (dsLinear s p)).pending = true ∨
        (epcmAt s (dsLinear s p)).modified = true ∨
        (epcmAt s (dsLinear s p)).enclaveAddress ≠ dsLinear s p ∨ (epcmAt s (dsLinear s p)).pt ≠ .ptReg ∨
        (epcmAt s (dsLinear s p)).enclaveSecs ≠ (epcmAt s (tcsLinear s)).enclaveSecs ∨
        (epcmAt s (dsLinear s p)).r = false ∨ (epcmAt s (dsLinear s p)).w = false) →
      EndsInPf s (dsLinear s p))

/-- The page of the GPR area: its translation fault, or `#PF(TMP_GPR)` (R196 to R201; that R196 is about `TMP_GPR` is
C13, that `ENCLAVEADDRESS` is compared with the page address is decision D36). -/
def Obligations.GprPageFaults : Prop :=
  ∀ s : State, Admitted s → ModeOk s → TcsPageOk s → ConfigOk s → XsavePagesOk s →
    (∀ f, translateAddr s.plat (dsLinear s (tmpGpr s)) .readwrite = .fault f → EndsInTranslationFault s f) ∧
    (∀ pa, translateAddr s.plat (dsLinear s (tmpGpr s)) .readwrite = .ok pa →
      (inEpc s.plat pa = false ∨
        ¬ SsaEntryOk s (dsLinear s (tmpGpr s)) (pageOf (dsLinear s (tmpGpr s)))) →
      EndsInPf s (dsLinear s (tmpGpr s)))

/-- A resume address that is not canonical, or above the CS limit outside 64-bit mode, raises `#GP(0)` (R204). -/
def Obligations.BadResumeAddressRaisesGp : Prop :=
  ∀ s : State, FrameOk s → gprFieldChecked s s.plat.gprLayout.rip = true →
    (mode64 s = true → canonical s.plat.laBits (gprField s s.plat.gprLayout.rip) = false → EndsInGp s) ∧
    (mode64 s = false → (low32 (gprField s s.plat.gprLayout.rip)).toNat > s.cs.limit.toNat → EndsInGp s)

/-- Outside 64-bit mode a GPR area whose last byte is above the DS limit, or a proposed FS or GS not within DS, raises
`#GP(0)` (the readings of the limits are decisions D37 and D12). -/
def Obligations.OutsideDsRaisesGp : Prop :=
  ∀ s : State, mode64 s = false →
    (Admitted s → ModeOk s → TcsPageOk s → ConfigOk s → XsavePagesOk s → GprPageOk s → ¬ GprInDs s → EndsInGp s) ∧
    (FrameOk s → CheckFieldsReadable s → TargetOk s →
      (¬ WithinDs s (tmpFsbase s) (tmpFslimit s) ∨ ¬ WithinDs s (tmpGsbase s) (tmpGslimit s)) → EndsInGp s)

/-- In 64-bit mode the new FS and GS bases come from the SSA frame, and a non-canonical one raises `#GP(0)` (R208). -/
def Obligations.NonCanonicalFsOrGsRaisesGp : Prop :=
  ∀ s : State, mode64 s = true →
    tmpFsbase s = gprField s s.plat.gprLayout.fsbase ∧ tmpGsbase s = gprField s s.plat.gprLayout.gsbase ∧
    (FrameOk s → CheckFieldsReadable s → TargetOk s →
      (canonical s.plat.laBits (gprField s s.plat.gprLayout.fsbase) = false ∨
        canonical s.plat.laBits (gprField s s.plat.gprLayout.gsbase) = false) → EndsInGp s)

/-- A TCS that is `ACTIVE` raises `#GP(0)`, with XRSTOR not reached (R209; the test-and-set is decision D4). -/
def Obligations.ActiveTcsRaisesGp : Prop :=
  ∀ s : State, FrameOk s → CheckFieldsReadable s → TargetOk s → SegmentsOk s → (tcsOf s).state = .active →
    EndsInGp s

/-- A failed XRSTOR raises `#GP(0)` with `TCS.STATE = INACTIVE` and the machine as it was but for `XSTATE` (R233); of
`FIXED_CTR1` and `FIXED_CTR2` nothing is said (U9). -/
def Obligations.XrstorFailureUndoesTheClaim : Prop :=
  ∀ s : State, Canonical s → ChecksPass s → xrstorFails s = true →
    ∃ t, exec .enclu s = .fault (.generalProtection 0#32 t) ∧
      (Sparse.get Tcs.blank t.tcs (tcsKey s)).state = .inactive ∧ SameMachine { s with xstate := t.xstate } t

/-- A non-zero byte at offsets 520 to 535 of the XSAVE area, or a bit vector at offset 512 that is no subset of `XFRM`,
makes XRSTOR fail (R231). -/
def Obligations.BadXsaveHeaderFails : Prop :=
  ∀ s : State, ChecksPass s →
    ((∃ k, 520 ≤ k ∧ k ≤ 535 ∧ xsaveByte s k ≠ 0#8) ∨
      (∃ i j, i < 8 ∧ j < 8 ∧ (xsaveByte s (512 + i)).getLsbD j = true ∧
        (secsOf s).xfrm.getLsbD (8 * i + j) = false)) →
    xrstorFails s = true ∧ ∃ t, exec .enclu s = .fault (.generalProtection 0#32 t)

/-- Every fault leaves the machine as it was, but for `XSTATE` after an XRSTOR failure (R300, decision D9); of
`FIXED_CTR1` and `FIXED_CTR2` nothing is said (U9, log entry 13). -/
def Obligations.FaultsLeaveTheMachineAsItWas : Prop :=
  ∀ (s : State) (f : Fault), Canonical s → exec .enclu s = .fault f →
    SameMachine { s with xstate := f.after.xstate } f.after ∧
      (¬ (ChecksPass s ∧ xrstorFails s = true) → SameMachine s f.after)

/-- Every `#GP` carries error code 0 (R291). -/
def Obligations.EveryGpHasErrorCodeZero : Prop :=
  ∀ (s t : State) (code : BitVec 32), exec .enclu s = .fault (.generalProtection code t) → code = 0#32

/-- A `#PF` reports the TCS address, a page of the XSAVE area, or `TMP_GPR` (60_exceptions.md R292, R293). -/
def Obligations.PageFaultAddresses : Prop :=
  ∀ (s t : State) (la : Word) (code : BitVec 32), exec .enclu s = .fault (.pageFault la code t) →
    la = tcsLinear s ∨ (∃ p ∈ ssaPages s, la = dsLinear s p) ∨ la = dsLinear s (tmpGpr s)

/-! ### What a successful ERESUME makes of the state -/

/-- Execution continues at the saved `RIP` (R242). -/
def Obligations.ResumesAtTheSavedRip : Prop :=
  ∀ s : State, Resumable s → ∃ t, exec .enclu s = .next t ∧
    t.rip = (if mode64 s then gprField s s.plat.gprLayout.rip else low32 (gprField s s.plat.gprLayout.rip))

/-- Every general register with an offset in the GPR area is loaded whole, in both modes, and no other is written (R243,
decision D21). -/
def Obligations.RestoresTheGeneralRegisters : Prop :=
  ∀ s : State, Resumable s → ∃ t, exec .enclu s = .next t ∧
    (∀ r off, readReg s.plat.gprLayout.reg r = some off → readReg t.gpr r = gprField s off) ∧
    (∀ r, readReg s.plat.gprLayout.reg r = none → readReg t.gpr r = readReg s.gpr r)

/-- Eleven flags are loaded from the saved image (R244, R245). -/
def Obligations.RestoresElevenFlags : Prop :=
  ∀ s : State, Resumable s → ∃ t, exec .enclu s = .next t ∧
    ∀ f ∈ [Flag.cf, .pf, .af, .zf, .sf, .df, .of, .nt, .ac, .id, .rf],
      flag t.rflags f = flag (gprField s s.plat.gprLayout.rflags) f

/-- `VM <- 0`; `IF` from the image exactly when `IOPL = 3`; `TF <- 0` on opt-out entry and kept on opt-in entry (R246,
R247, R248). -/
def Obligations.VmIfAndTf : Prop :=
  ∀ s : State, Resumable s → ∃ t, exec .enclu s = .next t ∧
    flag t.rflags .vm = false ∧
    (iopl s.rflags = 3#2 → flag t.rflags .if_ = flag (gprField s s.plat.gprLayout.rflags) .if_) ∧
    (iopl s.rflags ≠ 3#2 → flag t.rflags .if_ = flag s.rflags .if_) ∧
    ((tcsOf s).flags.getLsbD 0 = false → flag t.rflags .tf = false) ∧
    ((tcsOf s).flags.getLsbD 0 = true → flag t.rflags .tf = flag s.rflags .tf)

/-- `IOPL`, `VIF`, `VIP`, bit 1 and every reserved bit are kept (R249, which the spec marks as derived). -/
def Obligations.OtherRflagsBitsAreKept : Prop :=
  ∀ s : State, Resumable s → ∃ t, exec .enclu s = .next t ∧ iopl t.rflags = iopl s.rflags ∧
    ∀ i, (i = 1 ∨ i = 3 ∨ i = 5 ∨ i = 12 ∨ i = 13 ∨ i = 15 ∨ i = 19 ∨ i = 20 ∨ 22 ≤ i) →
      t.rflags.getLsbD i = s.rflags.getLsbD i

/-- The extended state is what `XRSTOR_LOAD` makes of the mode, `XFRM` and the bytes of the XSAVE area (R232). -/
def Obligations.LoadsTheExtendedState : Prop :=
  ∀ s : State, Resumable s → ∃ t bytes, exec .enclu s = .next t ∧
    bytes.length = (tmpXsize s).toNat ∧
    (∀ k, k < (tmpXsize s).toNat → bytes.getD k 0#8 =
      Memory.get s.mem (paOf s (dsLinear s (ea (mode64 s) (tmpSsa s + BitVec.ofNat 64 k)))).toNat) ∧
    t.xstate = Config.xrstorLoad { mode64 := mode64 s, xfrm := (secsOf s).xfrm, bytes := bytes }

/-- `XCR0` is saved and replaced when `CR4.OSXSAVE = 1`; neither is written otherwise (R250). -/
def Obligations.SwapsXcr0 : Prop :=
  ∀ s : State, Resumable s → ∃ t, exec .enclu s = .next t ∧
    (osxsave s = true → t.cr.saveXcr0 = s.xcr0 ∧ t.xcr0 = (secsOf s).xfrm) ∧
    (osxsave s = false → t.cr.saveXcr0 = s.cr.saveXcr0 ∧ t.xcr0 = s.xcr0)

/-- The caller's `RCX` is stored into `TCS.AEP`, and the SSA stack is popped (R239, R251). -/
def Obligations.StoresTheAepAndPopsTheFrame : Prop :=
  ∀ s : State, Canonical s → Resumable s → ∃ t, exec .enclu s = .next t ∧
    (Sparse.get Tcs.blank t.tcs (tcsKey s)).aep = (if mode64 s then s.gpr.rcx else low32 s.gpr.rcx) ∧
    (Sparse.get Tcs.blank t.tcs (tcsKey s)).cssa.toNat + 1 = (tcsOf s).cssa.toNat

/-- The TCS is `ACTIVE` afterwards (decision D4), its other fields are kept, and every other TCS is kept. -/
def Obligations.ClaimsTheTcsAndKeepsTheRest : Prop :=
  ∀ s : State, Canonical s → Resumable s → ∃ t, exec .enclu s = .next t ∧
    Sparse.get Tcs.blank t.tcs (tcsKey s) =
      { tcsOf s with
        state := .active
        aep := (Sparse.get Tcs.blank t.tcs (tcsKey s)).aep
        cssa := (Sparse.get Tcs.blank t.tcs (tcsKey s)).cssa } ∧
    ∀ k, k ≠ tcsKey s → Sparse.get Tcs.blank t.tcs k = Sparse.get Tcs.blank s.tcs k

/-- The new FS and GS (R252 to R254; that `W` is bit 1 of the type, written second, is decision D28). -/
def Obligations.BuildsFsAndGs : Prop :=
  ∀ s : State, Resumable s → ∃ t, exec .enclu s = .next t ∧
    t.fs.base = (if mode64 s then gprField s s.plat.gprLayout.fsbase
      else low32 ((tcsOf s).ofsbase + (secsOf s).baseaddr)) ∧
    t.gs.base = (if mode64 s then gprField s s.plat.gprLayout.gsbase
      else low32 ((tcsOf s).ogsbase + (secsOf s).baseaddr)) ∧
    t.fs.limit = (tcsOf s).fslimit ∧ t.gs.limit = (tcsOf s).gslimit ∧
    t.fs.selector = 0x000B#16 ∧ t.gs.selector = 0x000B#16 ∧ t.gs.ar = t.fs.ar ∧
    t.fs.ar.typ.getLsbD 0 = true ∧ t.fs.ar.typ.getLsbD 1 = s.ds.ar.typ.getLsbD 1 ∧
    t.fs.ar.typ.getLsbD 2 = false ∧ t.fs.ar.typ.getLsbD 3 = false ∧
    t.fs.ar.s = true ∧ t.fs.ar.dpl = s.ds.ar.dpl ∧ t.fs.ar.g = true ∧ t.fs.ar.b = true ∧ t.fs.ar.p = true ∧
    t.fs.ar.avl = s.ds.ar.avl ∧ t.fs.ar.l = s.ds.ar.l ∧ t.fs.ar.unusable = false

/-- The caller's FS and GS, hidden parts included, are saved (R240, R241). -/
def Obligations.SavesFsAndGs : Prop :=
  ∀ s : State, Resumable s → ∃ t, exec .enclu s = .next t ∧
    t.cr.saveFs.selector = s.fs.selector ∧ t.cr.saveFs.base = s.fs.base ∧ t.cr.saveFs.limit = s.fs.limit ∧
    t.cr.saveFs.ar = s.fs.ar ∧
    t.cr.saveGs.selector = s.gs.selector ∧ t.cr.saveGs.base = s.gs.base ∧ t.cr.saveGs.limit = s.gs.limit ∧
    t.cr.saveGs.ar = s.gs.ar

/-- Enclave mode is entered and the `CR_*` registers name the enclave, the TCS and the SSA frame (R234 to R238, R255,
R203). The `CR_XSAVE_PAGE_n` of R194 are over the pages of decision D10, and that the list is replaced whole, so that it
has no further entry, is the model's choice (log entry 37). -/
def Obligations.EntersEnclaveMode : Prop :=
  ∀ s : State, Resumable s → ∃ t, exec .enclu s = .next t ∧
    t.cr.enclaveMode = true ∧
    t.cr.activeSecs = (epcmAt s (tcsLinear s)).enclaveSecs ∧
    t.cr.elrange = { base := (secsOf s).baseaddr, size := (secsOf s).size } ∧
    translateAddr s.plat (tcsLinear s) .readwrite = .ok t.cr.tcsPa ∧
    t.cr.tcsLa = (if mode64 s then s.gpr.rbx else low32 s.gpr.rbx) ∧
    t.cr.dbgOptIn = (tcsOf s).flags.getLsbD 0 ∧
    translateAddr s.plat (dsLinear s (tmpGpr s)) .readwrite = .ok t.cr.gprPa ∧
    t.cr.xsavePages.length = (ssaPages s).length ∧
    ∀ n, n < (ssaPages s).length →
      translateAddr s.plat (dsLinear s ((ssaPages s).getD n 0#64)) .readwrite = .ok (t.cr.xsavePages.getD n 0#64)

/-- The debug state after an opt-out and after an opt-in entry (R257, R258; `CR_SAVE_TF` under both readings of
`SAVE_TF_READING` is decision D7, the pending single-step exception decision D26). That an opt-in entry leaves the two
bits for breakpoints in ELRANGE as they were, also where one was already 1, is the model's choice (log entry 41). -/
def Obligations.DebugStateOfTheEntry : Prop :=
  ∀ s : State, Resumable s → ∃ t, exec .enclu s = .next t ∧ t.dbg.pendingMtfVmexit = false ∧
    ((tcsOf s).flags.getLsbD 0 = false →
      t.dbg.suppressCodeBpInElrange = true ∧ t.dbg.suppressDataBpInElrange = true ∧
      t.dbg.suppressMtfVmexit = true ∧ t.dbg.pendingDbg = [] ∧ flag t.rflags .tf = false ∧
      (s.plat.saveTf = .operationOrder → t.cr.saveTf = false) ∧
      (s.plat.saveTf = .prose → t.cr.saveTf = flag s.rflags .tf)) ∧
    ((tcsOf s).flags.getLsbD 0 = true →
      t.dbg.suppressCodeBpInElrange = s.dbg.suppressCodeBpInElrange ∧
      t.dbg.suppressDataBpInElrange = s.dbg.suppressDataBpInElrange ∧
      t.dbg.suppressMtfVmexit = s.dbg.suppressMtfVmexit ∧ t.cr.saveTf = s.cr.saveTf ∧
      (flag s.rflags .tf = true → t.dbg.pendingDbg = [.singleStep]) ∧
      (flag s.rflags .tf = false → t.dbg.pendingDbg = []))

/-- Code breakpoints outside ELRANGE are suppressed on either entry (R256). Which breakpoints are outside is R39, which
the spec marks as derived, read as log entry 34 says: no byte of them is in the range, taken without wrap-around, so a
breakpoint over no bytes is outside. -/
def Obligations.OutsideBreakpointsAreSuppressed : Prop :=
  ∀ s : State, Resumable s → ∃ t, exec .enclu s = .next t ∧
    t.dbg.suppressCodeBpOutsideElrange = true ∧
    ∀ lo len, overlapsElrange { base := (secsOf s).baseaddr, size := (secsOf s).size } lo len = false →
      codeBpSuppressed t lo len = true

/-- The linear context is flushed and the address monitor disarmed (R259, R260). -/
def Obligations.FlushesAndDisarms : Prop :=
  ∀ s : State, Resumable s → ∃ t, exec .enclu s = .next t ∧ t.tlb = [] ∧ t.monitorArmed = false

/-- On opt-out entry PEBS is suppressed and AnyThread counting of the other threads is demoted (R319, R320); performance
monitoring is suppressed too (R318, of which the counting of `FIXED_CTR1` and `FIXED_CTR2` is left out: U9, log entry 13).
That a demotion keeps the bit `countsAnyThread` is the model's choice (log entry 35). -/
def Obligations.OptOutSuppressesPerformanceMonitoring : Prop :=
  ∀ s : State, Resumable s → (tcsOf s).flags.getLsbD 0 = false → ∃ t, exec .enclu s = .next t ∧
    t.perf.perfmonSuppressed = true ∧ t.perf.pebsSuppressed = true ∧
    t.siblings.length = s.siblings.length ∧
    ∀ (n : Nat) (u : Sibling), s.siblings[n]? = some u →
      ∃ v, t.siblings[n]? = some v ∧ v.countsAnyThread = u.countsAnyThread ∧
        (u.countsAnyThread = true → v.anyThreadDemoted = true ∧
          ∀ i, v.perfGlobalStatus.getLsbD i = (decide (i = 60) || u.perfGlobalStatus.getLsbD i)) ∧
        (u.countsAnyThread = false → v = u)

/-- `IA32_PERF_GLOBAL_STATUS[60]` and `[63]` are set on an opt-out entry that suppresses anything (decision D27), its
other bits are kept (overflow events of the two counters are left out, log entry 13), and an opt-in entry writes none of the performance-monitoring state of R318 to R321 (R322). -/
def Obligations.GlobalStatusBits : Prop :=
  ∀ s : State, Resumable s → ∃ t, exec .enclu s = .next t ∧
    ((tcsOf s).flags.getLsbD 0 = false → ∀ i, t.perf.globalStatus.getLsbD i =
      ((s.oracle.perfmonSuppressedAny && decide (i = 60 ∨ i = 63)) || s.perf.globalStatus.getLsbD i)) ∧
    ((tcsOf s).flags.getLsbD 0 = true → t.perf.perfmonSuppressed = s.perf.perfmonSuppressed ∧
      t.perf.pebsSuppressed = s.perf.pebsSuppressed ∧ t.perf.globalStatus = s.perf.globalStatus ∧
      t.siblings = s.siblings)

/-- What a successful ERESUME leaves: the other segment registers, `IA32_EFER`, `CR4`, every byte of memory outside the
TCSs, the SECSs and the EPCM (R264, which the spec marks as derived). That the TCSs are records apart from memory, so that
all of `mem` is kept, is decision D2 and log entry 2; that no execution changes the parameters and the premises is the
model's choice (log entries 14 and 20). -/
def Obligations.FrameOfASuccessfulEntry : Prop :=
  ∀ s t : State, exec .enclu s = .next t →
    t.cs = s.cs ∧ t.ss = s.ss ∧ t.ds = s.ds ∧ t.es = s.es ∧ t.efer = s.efer ∧ t.cr4 = s.cr4 ∧
    (∀ a, Memory.get t.mem a = Memory.get s.mem a) ∧
    (∀ a, Sparse.get Secs.blank t.secs a = Sparse.get Secs.blank s.secs a) ∧
    (∀ n, Sparse.get EpcmEntry.blank t.epcm n = Sparse.get EpcmEntry.blank s.epcm n) ∧
    t.prem = s.prem ∧ t.plat = s.plat ∧ t.siblings.length = s.siblings.length

/-! ### Addresses -/

/-- `TMP_SSA` (R185; that the sum is reduced modulo 2^32 or 2^64 is decision D11). -/
def Obligations.SsaFrameAddress : Prop :=
  ∀ s : State, (tcsOf s).cssa ≠ 0#32 →
    (tmpSsa s).toNat =
      ((tcsOf s).ossa.toNat + (secsOf s).baseaddr.toNat +
        4096 * (secsOf s).ssaframesize.toNat * ((tcsOf s).cssa.toNat - 1)) %
        2 ^ (if mode64 s then 64 else 32)

/-- The loop visits exactly the pages that hold a byte of the XSAVE area, in ascending order unless the area wraps
(R187, decision D10). -/
def Obligations.SsaPagesCoverTheXsaveArea : Prop :=
  ∀ s : State,
    (∀ p, p ∈ ssaPages s ↔
      ∃ k, k < (tmpXsize s).toNat ∧ p = ea (mode64 s) (pageOf (tmpSsa s + BitVec.ofNat 64 k))) ∧
    ((tmpSsa s).toNat + (tmpXsize s).toNat ≤ 2 ^ (if mode64 s then 64 else 32) →
      (ssaPages s).Pairwise fun p q => p.toNat < q.toNat)

/-- `TMP_GPR`: the GPR area is the last `GPR_SIZE` bytes of the frame (R195; the width of the sum is decision D11). -/
def Obligations.GprAreaAddress : Prop :=
  ∀ s : State,
    ((tmpGpr s).toNat : Int) =
      ((tmpSsa s).toNat + 4096 * (secsOf s).ssaframesize.toNat - s.plat.gprSize : Int) %
        2 ^ (if mode64 s then 64 else 32)

/-- With an aligned frame end and a GPR area of at most a page, every field of the area is on a checked page, so nothing is
refused as unchecked (R102, which the spec marks as derived). -/
def Obligations.AlignedGprAreaIsChecked : Prop :=
  ∀ (s : State) (off : Nat), ModeOk s → aligned4K (tmpSsa s + frameBytes s) = true → s.plat.gprSize ≤ 4096 →
    off + 8 ≤ s.plat.gprSize → gprFieldChecked s off = true

/-- `XSAVE_SIZE` is at least 536, whatever the parameter (R186, D19). -/
def Obligations.XsaveSizeIsAtLeast536 : Prop :=
  ∀ s : State, 536 ≤ (tmpXsize s).toNat

/-! ### The whole machine -/

/-- Every step keeps the invariant (canonical tables are the model's form, log entries 2 and 9; the fixed bits of
`RFLAGS` are R26's, general knowledge, log entry 22). -/
def Obligations.EveryStepKeepsTheInvariant : Prop :=
  ∀ s t : State, Inv s → step s = .next t → Inv t

/-- The state after reset (the model's choice: log entries 6 to 11) has the invariant. -/
def Obligations.ResetHasTheInvariant : Prop := Inv State.reset

/-- ERESUME is executed outside enclave mode and ends inside it, so no step follows a step (R310, D8). That the step
after an entry is the fetch at the new `RIP`, with nothing pending delivered first, is the model's choice (log entry 39):
R352 does not say what runs next. -/
def Obligations.NoStepFollowsAnEntry : Prop :=
  ∀ s t u : State, step s = .next t → t.cr.enclaveMode = true ∧ step t ≠ .next u

/-- Of two executions through one TCS, on states that share the TCSs, only one enters (R112, decision D4). -/
def Obligations.OneEntryPerTcs : Prop :=
  ∀ s t u v : State, Canonical s → exec .enclu s = .next t → u.tcs = t.tcs → tcsKey u = tcsKey s →
    exec .enclu u ≠ .next v

/-- What the bytes of the SSA frame can and cannot set: two entries that differ in memory alone differ in `RIP`, the
general registers, the flags of the closed list, the extended state and, in 64-bit mode, the FS and GS bases alone
(R343, which the spec marks as derived). Nothing is said of the LBR stack (R316, N14), of `FIXED_CTR1` and `FIXED_CTR2`
(U9), and of the next oracle inputs (log entry 11). -/
def Obligations.SavedImageSetsOnlyWhatIsListed : Prop :=
  ∀ (s t t' : State) (m : List Host.Cell), exec .enclu s = .next t → exec .enclu { s with mem := m } = .next t' →
    t' = { t with
      mem := m
      rip := t'.rip
      gpr := t'.gpr
      rflags := t'.rflags
      xstate := t'.xstate
      lbr := t'.lbr
      perf := { t.perf with fixedCtr1 := t'.perf.fixedCtr1, fixedCtr2 := t'.perf.fixedCtr2 }
      oracle := t'.oracle
      fs := { t.fs with base := t'.fs.base }
      gs := { t.gs with base := t'.gs.base } } ∧
    (mode64 s = false → t'.fs = t.fs ∧ t'.gs = t.gs) ∧
    flag t'.rflags .vm = flag t.rflags .vm ∧ flag t'.rflags .tf = flag t.rflags .tf ∧
    flag t'.rflags .vif = flag t.rflags .vif ∧ flag t'.rflags .vip = flag t.rflags .vip ∧
    iopl t'.rflags = iopl t.rflags ∧
    (iopl s.rflags ≠ 3#2 → flag t'.rflags .if_ = flag t.rflags .if_)
end

