-- ==== Sys2Proof/Laws/Decode.lean ====
section
/-! SUPPORT. What the opcode table matches. -/

namespace Sys2Proof

/-- Three bytes are told apart by their concatenation. -/
theorem bytes_append_inj {a b c a' b' c' : Byte} (h : a ++ b ++ c = a' ++ b' ++ c') : a = a' ∧ b = b' ∧ c = c' := by
  have bit : ∀ i, (a ++ b ++ c).getLsbD i = (a' ++ b' ++ c').getLsbD i := fun i => by rw [h]
  simp only [BitVec.getLsbD_append] at bit
  refine ⟨?_, ?_, ?_⟩ <;> apply BitVec.eq_of_getLsbD_eq <;> intro i hi
  · have := bit (i + 16)
    simpa [show ¬ i + 16 < 8 by omega, show ¬ i + 16 - 8 < 8 by omega, show i + 16 - 8 - 8 = i by omega] using this
  · have := bit (i + 8)
    simpa [show ¬ i + 8 < 8 by omega, hi] using this
  · simpa [hi] using bit i

/-- The one row of the opcode table matches the bytes of `ENCLU` and no others. -/
theorem matchRow_eq_some {b0 b1 b2 : Byte} {r : OpcodeRow} :
    matchRow b0 b1 b2 = some r ↔
      (b0 = 0x0F#8 ∧ b1 = 0x01#8 ∧ b2 = 0xD7#8) ∧ r = ⟨0xFFFFFF#24, 0x0F01D7#24, .enclu⟩ := by
  have all : ∀ v : BitVec 24, v &&& 0xFFFFFF#24 = v := fun v => BitVec.and_allOnes
  constructor
  · intro h
    simp only [matchRow, opcodeRows, List.find?_cons, List.find?_nil, all] at h
    split at h
    · rename_i hm
      have : b0 ++ b1 ++ b2 = 0x0F#8 ++ 0x01#8 ++ 0xD7#8 := by simpa using hm
      exact ⟨bytes_append_inj this, by simpa using h.symm⟩
    · simp at h
  · rintro ⟨⟨rfl, rfl, rfl⟩, rfl⟩
    rfl

end Sys2Proof
end

