-- ==== Sys2Proof/Laws/Sparse.lean ====
section
/-! SUPPORT. The laws of the sparse tables: read after write, canonical form, and equality of canonical tables. -/

namespace Sys2Proof.Machine

variable {α : Type}

@[simp] theorem sparse_get_nil (d : α) (k : Nat) : Sparse.get d [] k = d := rfl

theorem sparse_get_cons (d : α) (a : Nat) (v : α) (t : List (Nat × α)) (k : Nat) :
    Sparse.get d ((a, v) :: t) k = if a = k then v else Sparse.get d t k := rfl

/-- A key below every listed key reads as the default. -/
theorem sparse_get_of_lt (d : α) (t : List (Nat × α)) (k : Nat) (h : ∀ p ∈ t, k < p.1) : Sparse.get d t k = d := by
  induction t with
  | nil => rfl
  | cons p t ih =>
    have hp := h p (List.mem_cons_self ..)
    rw [sparse_get_cons, if_neg (by omega)]
    exact ih fun q hq => h q (List.mem_cons_of_mem _ hq)

variable [DecidableEq α]

@[simp] theorem sparse_wf_nil (d : α) : Sparse.wf d [] = true := rfl

theorem sparse_wf_cons (d : α) (a : Nat) (v : α) (t : List (Nat × α)) :
    Sparse.wf d ((a, v) :: t) = true ↔ v ≠ d ∧ (∀ p ∈ t, a < p.1) ∧ Sparse.wf d t = true := by
  simp [Sparse.wf, and_assoc]

/-- Read after write, in a canonical table. -/
theorem sparse_get_set (d : α) (t : List (Nat × α)) (k j : Nat) (v : α) (h : Sparse.wf d t = true) :
    Sparse.get d (Sparse.set d t k v) j = if k = j then v else Sparse.get d t j := by
  induction t with
  | nil => by_cases hv : v = d <;> simp [Sparse.set, hv, sparse_get_cons]
  | cons p t ih =>
    obtain ⟨a, w⟩ := p
    obtain ⟨-, hlt, ht⟩ := (sparse_wf_cons ..).1 h
    have below : ∀ m, m ≤ a → Sparse.get d t m = d := fun m hm =>
      sparse_get_of_lt d t m fun q hq => lt_of_le_of_lt hm (hlt q hq)
    rcases lt_trichotomy k a with hk | rfl | hk
    · by_cases hv : v = d
      · by_cases hj : k = j
        · subst hj
          simp [Sparse.set, hk, hv, sparse_get_cons, below k hk.le, show a ≠ k by omega]
        · simp [Sparse.set, hk, hv, hj]
      · simp [Sparse.set, hk, hv, sparse_get_cons]
    · by_cases hv : v = d
      · by_cases hj : k = j
        · subst hj; simp [Sparse.set, hv, below k le_rfl]
        · simp [Sparse.set, hv, hj, sparse_get_cons]
      · by_cases hj : k = j <;> simp [Sparse.set, hv, hj, sparse_get_cons]
    · have h1 : ¬ k < a := by omega
      have h2 : k ≠ a := by omega
      by_cases hj : a = j
      · subst hj; simp [Sparse.set, h1, h2, sparse_get_cons]
      · simp [Sparse.set, h1, h2, sparse_get_cons, hj, ih ht]

/-- Writing at a key keeps a lower bound of the keys. -/
theorem sparse_set_lower (d : α) (t : List (Nat × α)) (k a : Nat) (v : α) (hk : a < k) (h : ∀ p ∈ t, a < p.1) :
    ∀ p ∈ Sparse.set d t k v, a < p.1 := by
  induction t with
  | nil => by_cases hv : v = d <;> simp [Sparse.set, hv, hk]
  | cons p t ih =>
    obtain ⟨b, w⟩ := p
    have hb : a < b := h (b, w) (List.mem_cons_self ..)
    have ht : ∀ p ∈ t, a < p.1 := fun q hq => h q (List.mem_cons_of_mem _ hq)
    intro q hq
    simp only [Sparse.set] at hq
    split at hq
    · split at hq
      · exact h q hq
      · rcases List.mem_cons.1 hq with rfl | hq
        · exact hk
        · exact h q hq
    · split at hq
      · split at hq
        · exact ht q hq
        · rcases List.mem_cons.1 hq with rfl | hq
          · exact hk
          · exact ht q hq
      · rcases List.mem_cons.1 hq with rfl | hq
        · exact hb
        · exact ih ht q hq

/-- A write keeps the canonical form. -/
theorem sparse_set_wf (d : α) (t : List (Nat × α)) (k : Nat) (v : α) (h : Sparse.wf d t = true) :
    Sparse.wf d (Sparse.set d t k v) = true := by
  induction t with
  | nil => by_cases hv : v = d <;> simp [Sparse.set, Sparse.wf, hv]
  | cons p t ih =>
    obtain ⟨a, w⟩ := p
    obtain ⟨hw, hlt, ht⟩ := (sparse_wf_cons ..).1 h
    simp only [Sparse.set]
    split
    · rename_i hk
      split
      · exact h
      · rename_i hv
        refine (sparse_wf_cons ..).2 ⟨hv, ?_, h⟩
        intro q hq
        rcases List.mem_cons.1 hq with rfl | hq
        · exact hk
        · exact lt_trans hk (hlt q hq)
    · split
      · rename_i _ hk
        subst hk
        split
        · exact ht
        · rename_i hv
          exact (sparse_wf_cons ..).2 ⟨hv, hlt, ht⟩
      · exact (sparse_wf_cons ..).2 ⟨hw, sparse_set_lower d t k a v (by omega) hlt, ih ht⟩

/-- Canonical tables that read alike are equal. -/
theorem sparse_ext (d : α) (t u : List (Nat × α)) (ht : Sparse.wf d t = true) (hu : Sparse.wf d u = true)
    (h : ∀ k, Sparse.get d t k = Sparse.get d u k) : t = u := by
  induction t generalizing u with
  | nil =>
    cases u with
    | nil => rfl
    | cons p u =>
      obtain ⟨b, w⟩ := p
      have := h b
      simp only [sparse_get_cons, if_pos, sparse_get_nil] at this
      exact absurd this.symm ((sparse_wf_cons ..).1 hu).1
  | cons p t ih =>
    obtain ⟨a, v⟩ := p
    obtain ⟨hv, hlt, ht'⟩ := (sparse_wf_cons ..).1 ht
    cases u with
    | nil =>
      have := h a
      simp only [sparse_get_cons, if_pos, sparse_get_nil] at this
      exact absurd this hv
    | cons q u =>
      obtain ⟨b, w⟩ := q
      obtain ⟨hw, hlu, hu'⟩ := (sparse_wf_cons ..).1 hu
      have hab : a = b := by
        rcases lt_trichotomy a b with hl | he | hl
        · have := h a
          rw [sparse_get_cons, if_pos rfl, sparse_get_cons, if_neg (by omega),
            sparse_get_of_lt d u a fun q hq => lt_trans hl (hlu q hq)] at this
          exact absurd this hv
        · exact he
        · have := h b
          rw [sparse_get_cons, if_neg (by omega), sparse_get_cons, if_pos rfl,
            sparse_get_of_lt d t b fun q hq => lt_trans hl (hlt q hq)] at this
          exact absurd this.symm hw
      subst hab
      have hvw : v = w := by simpa [sparse_get_cons] using h a
      subst hvw
      rw [ih u ht' hu' fun k => ?_]
      by_cases hk : a = k
      · subst hk
        rw [sparse_get_of_lt d t a hlt, sparse_get_of_lt d u a hlu]
      · simpa [sparse_get_cons, hk] using h k

/-- Writing back what was there changes nothing. -/
theorem sparse_set_set_back (d : α) (t : List (Nat × α)) (k : Nat) (v : α) (h : Sparse.wf d t = true) :
    Sparse.set d (Sparse.set d t k v) k (Sparse.get d t k) = t := by
  have h1 := sparse_set_wf d t k v h
  refine sparse_ext d _ _ (sparse_set_wf d _ _ _ h1) h fun j => ?_
  rw [sparse_get_set d _ _ _ _ h1, sparse_get_set d _ _ _ _ h]
  by_cases hj : k = j <;> simp [hj]

/-- A write to physical memory keeps its canonical form. -/
theorem memory_set_wf (m : List Host.Cell) (a : Nat) (v : Byte) (h : Memory.wf m = true) :
    Memory.wf (Memory.set m a v) = true := sparse_set_wf _ m a v h

/-- Read after write of physical memory. -/
theorem memory_get_set (m : List Host.Cell) (a b : Nat) (v : Byte) (h : Memory.wf m = true) :
    Memory.get (Memory.set m a v) b = if a = b then v else Memory.get m b := sparse_get_set _ m a b v h

end Sys2Proof.Machine
end

