-- ==== Sys2Proof/Laws/State.lean ====
section
/-! SUPPORT. One lemma per field per update, each true by rfl: `countFixed`, `tick`, `setTcs` and `commit`. -/

namespace Sys2Proof.Machine

open Sys2Proof.Config

variable (s : State) (t : Tcs) (n : Nat) (p : PerfState)

@[simp] theorem countFixed_fixedCtr1 : (countFixed n p).fixedCtr1 = Config.freeFixedCtr1 p.fixedCtr1 n := rfl
@[simp] theorem countFixed_fixedCtr2 : (countFixed n p).fixedCtr2 = Config.freeFixedCtr2 p.fixedCtr2 n := rfl
@[simp] theorem countFixed_globalStatus : (countFixed n p).globalStatus = p.globalStatus := rfl
@[simp] theorem countFixed_perfmonSuppressed : (countFixed n p).perfmonSuppressed = p.perfmonSuppressed := rfl
@[simp] theorem countFixed_pebsSuppressed : (countFixed n p).pebsSuppressed = p.pebsSuppressed := rfl

@[simp] theorem tick_gpr : (tick s).gpr = s.gpr := rfl
@[simp] theorem tick_rip : (tick s).rip = s.rip := rfl
@[simp] theorem tick_rflags : (tick s).rflags = s.rflags := rfl
@[simp] theorem tick_xstate : (tick s).xstate = s.xstate := rfl
@[simp] theorem tick_cr : (tick s).cr = s.cr := rfl
@[simp] theorem tick_dbg : (tick s).dbg = s.dbg := rfl
@[simp] theorem tick_perf : (tick s).perf = countFixed s.draws s.perf := rfl
@[simp] theorem tick_lbr : (tick s).lbr = s.lbr := rfl
@[simp] theorem tick_siblings : (tick s).siblings = s.siblings := rfl
@[simp] theorem tick_mem : (tick s).mem = s.mem := rfl
@[simp] theorem tick_tcs : (tick s).tcs = s.tcs := rfl
@[simp] theorem tick_secs : (tick s).secs = s.secs := rfl
@[simp] theorem tick_epcm : (tick s).epcm = s.epcm := rfl
@[simp] theorem tick_plat : (tick s).plat = s.plat := rfl
@[simp] theorem tick_prem : (tick s).prem = s.prem := rfl
@[simp] theorem tick_draws : (tick s).draws = s.draws + 1 := rfl
@[simp] theorem tick_oracle : (tick s).oracle = Config.freeOracle s.draws := rfl

@[simp] theorem setTcs_tcs : (setTcs s t).tcs = Sparse.set Tcs.blank s.tcs (tcsKey s) t := rfl
@[simp] theorem setTcs_mem : (setTcs s t).mem = s.mem := rfl
@[simp] theorem setTcs_secs : (setTcs s t).secs = s.secs := rfl
@[simp] theorem setTcs_epcm : (setTcs s t).epcm = s.epcm := rfl
@[simp] theorem setTcs_plat : (setTcs s t).plat = s.plat := rfl
@[simp] theorem setTcs_gpr : (setTcs s t).gpr = s.gpr := rfl
@[simp] theorem setTcs_cr : (setTcs s t).cr = s.cr := rfl
@[simp] theorem setTcs_draws : (setTcs s t).draws = s.draws := rfl
/-- A write to the TCS does not move it. -/
@[simp] theorem setTcs_tcsKey : tcsKey (setTcs s t) = tcsKey s := rfl

@[simp] theorem commit_rip : (commit s).rip = tmpTarget s := rfl
@[simp] theorem commit_gpr : (commit s).gpr = restoredGprs s := rfl
@[simp] theorem commit_rflags : (commit s).rflags = newRflags s := rfl
@[simp] theorem commit_xstate : (commit s).xstate = Config.xrstorLoad (xrstorArgs s) := rfl
@[simp] theorem commit_xcr0 : (commit s).xcr0 = if osxsave s then (secsOf s).xfrm else s.xcr0 := rfl
@[simp] theorem commit_cs : (commit s).cs = s.cs := rfl
@[simp] theorem commit_ss : (commit s).ss = s.ss := rfl
@[simp] theorem commit_ds : (commit s).ds = s.ds := rfl
@[simp] theorem commit_es : (commit s).es = s.es := rfl
@[simp] theorem commit_fs : (commit s).fs = newFs s := rfl
@[simp] theorem commit_gs : (commit s).gs = newGs s := rfl
@[simp] theorem commit_efer : (commit s).efer = s.efer := rfl
@[simp] theorem commit_cr4 : (commit s).cr4 = s.cr4 := rfl
@[simp] theorem commit_cr : (commit s).cr = newCr s := rfl
@[simp] theorem commit_dbg : (commit s).dbg = newDbg s := rfl
@[simp] theorem commit_perf : (commit s).perf = countFixed s.draws (newPerf s) := rfl
@[simp] theorem commit_siblings : (commit s).siblings = newSiblings s := rfl
@[simp] theorem commit_tlb : (commit s).tlb = [] := rfl
@[simp] theorem commit_monitorArmed : (commit s).monitorArmed = false := rfl
@[simp] theorem commit_lbr : (commit s).lbr =
    Config.freeLbrStack { source := s.rip, target := tmpTarget s } s.lbr s.draws := rfl
@[simp] theorem commit_mem : (commit s).mem = s.mem := rfl
@[simp] theorem commit_tcs : (commit s).tcs = Sparse.set Tcs.blank s.tcs (tcsKey s) (newTcs s) := rfl
@[simp] theorem commit_secs : (commit s).secs = s.secs := rfl
@[simp] theorem commit_epcm : (commit s).epcm = s.epcm := rfl
@[simp] theorem commit_prem : (commit s).prem = s.prem := rfl
@[simp] theorem commit_plat : (commit s).plat = s.plat := rfl
@[simp] theorem commit_draws : (commit s).draws = s.draws + 1 := rfl
@[simp] theorem commit_oracle : (commit s).oracle = Config.freeOracle s.draws := rfl

/-- Building a register file and reading it back. -/
@[simp] theorem readReg_buildRegs {α : Type} (f : Reg → α) (r : Reg) : readReg (buildRegs f) r = f r := by
  cases r <;> rfl

end Sys2Proof.Machine
end

