-- ==== Sys2Proof/Laws/Eresume.lean ====
section
/-! SUPPORT. What decides how `ENCLU` ends: the laws of `firstStop`, and for each group of causes the condition of
40_enclu_eresume_checks.md under which none of them fires. -/

namespace Sys2Proof.Machine

open Sys2Proof.Config

/-! ### The first cause that fires -/

@[simp] theorem firstStop_nil : firstStop [] = none := rfl

theorem firstStop_cons (c : Cause) (cs : List Cause) :
    firstStop (c :: cs) = if c.fires then some c.stop else firstStop cs := rfl

/-- No cause stops the instruction exactly when none fires. -/
theorem firstStop_eq_none (cs : List Cause) : firstStop cs = none ↔ ∀ c ∈ cs, c.fires = false := by
  induction cs with
  | nil => simp
  | cons c cs ih => by_cases h : c.fires = true <;> simp [firstStop_cons, h, ih]

/-- Causes that do not fire may be left out in front. -/
theorem firstStop_append_of_none {a : List Cause} (h : firstStop a = none) (b : List Cause) :
    firstStop (a ++ b) = firstStop b := by
  induction a with
  | nil => rfl
  | cons c cs ih =>
    have hc : c.fires = false := (firstStop_eq_none _).1 h c (List.mem_cons_self ..)
    rw [firstStop_cons, hc] at h
    rw [List.cons_append, firstStop_cons, hc]
    exact ih h

/-- The first group in which a cause fires decides. -/
theorem firstStop_append_of_some {a : List Cause} {st : Stop} (h : firstStop a = some st) (b : List Cause) :
    firstStop (a ++ b) = some st := by
  induction a with
  | nil => simp at h
  | cons c cs ih =>
    rw [firstStop_cons] at h
    rw [List.cons_append, firstStop_cons]
    by_cases hc : c.fires = true
    · simpa [hc] using h
    · simp only [hc, Bool.false_eq_true, if_false] at h ⊢
      exact ih h

theorem firstStop_append_eq_none (a b : List Cause) :
    firstStop (a ++ b) = none ↔ firstStop a = none ∧ firstStop b = none := by
  simp only [firstStop_eq_none, List.mem_append]
  exact ⟨fun h => ⟨fun c hc => h c (.inl hc), fun c hc => h c (.inr hc)⟩,
    fun h c hc => hc.elim (h.1 c) (h.2 c)⟩

/-- What stops the instruction is the stop of a cause that fires. -/
theorem firstStop_some_mem {cs : List Cause} {st : Stop} (h : firstStop cs = some st) :
    ∃ c ∈ cs, c.fires = true ∧ c.stop = st := by
  induction cs with
  | nil => simp at h
  | cons c cs ih =>
    rw [firstStop_cons] at h
    by_cases hc : c.fires = true
    · exact ⟨c, List.mem_cons_self .., hc, by simpa [hc] using h⟩
    · obtain ⟨d, hd, hf, hs⟩ := ih (by simpa [hc] using h)
      exact ⟨d, List.mem_cons_of_mem _ hd, hf, hs⟩

/-- If every cause of a list ends alike and one fires, that is the stop. -/
theorem firstStop_eq_some_of_all {cs : List Cause} {st : Stop} (hs : ∀ c ∈ cs, c.stop = st)
    (h : ∃ c ∈ cs, c.fires = true) : firstStop cs = some st := by
  cases hf : firstStop cs with
  | none =>
    obtain ⟨c, hc, hfire⟩ := h
    rw [(firstStop_eq_none _).1 hf c hc] at hfire
    exact absurd hfire (by decide)
  | some st' =>
    obtain ⟨c, hc, -, he⟩ := firstStop_some_mem hf
    rw [← he, hs c hc]

/-! ### How an execution ends -/

theorem execEnclu_of_stop {s : State} {st : Stop} (h : firstStop (eresumeCauses s) = some st) :
    execEnclu s = stopOutcome s st := by simp [execEnclu, h]

theorem execEnclu_of_none {s : State} (h : firstStop (eresumeCauses s) = none) :
    execEnclu s = .next (commit s) := by simp [execEnclu, h]

/-- No stop is a next state. -/
theorem stopOutcome_ne_next (s t : State) (st : Stop) : stopOutcome s st ≠ .next t := by
  cases st with
  | raised e => cases e <;> simp [stopOutcome, raise]
  | xrstorFailed => simp [stopOutcome, raise]
  | refuse r => simp [stopOutcome]

/-- A next state of `ENCLU` is the commit, made when no cause fires. -/
theorem execEnclu_eq_next {s t : State} :
    execEnclu s = .next t ↔ firstStop (eresumeCauses s) = none ∧ t = commit s := by
  constructor
  · intro h
    cases hf : firstStop (eresumeCauses s) with
    | none =>
      rw [execEnclu_of_none hf] at h
      exact ⟨rfl, by injection h with h; exact h.symm⟩
    | some st =>
      rw [execEnclu_of_stop hf] at h
      exact absurd h (stopOutcome_ne_next s t st)
  · rintro ⟨hf, rfl⟩
    exact execEnclu_of_none hf

/-- `exec` of the one instruction is `execEnclu`. -/
@[simp] theorem exec_enclu (s : State) : exec .enclu s = execEnclu s := rfl

/-! ### The groups of causes -/

@[simp] theorem gpCause_fires (n : Nat) (b : Bool) : (gpCause n b).fires = b := rfl
@[simp] theorem gpCause_stop (n : Nat) (b : Bool) : (gpCause n b).stop = .raised .gp := rfl
@[simp] theorem pfCause_fires (n : Nat) (b : Bool) (la : Word) (p : PfPage) (t : PfTest) :
    (pfCause n b la p t).fires = b := rfl
@[simp] theorem pfCause_stop (n : Nat) (b : Bool) (la : Word) (p : PfPage) (t : PfTest) :
    (pfCause n b la p t).stop = .raised (.pf la ⟨p, t⟩) := rfl
@[simp] theorem refuseCause_fires (n : Nat) (b : Bool) (r : Refusal) : (refuseCause n b r).fires = b := rfl
@[simp] theorem refuseCause_stop (n : Nat) (b : Bool) (r : Refusal) : (refuseCause n b r).stop = .refuse r := rfl

theorem xlatCause_fires_eq_false (n : Nat) (s : State) (la : Word) :
    (xlatCause n s la).fires = false ↔ ∃ pa, translateAddr s.plat la .readwrite = .ok pa := by
  unfold xlatCause
  split <;> simp_all

theorem xlatCause_of_fault {n : Nat} {s : State} {la : Word} {f : DeliveredFault}
    (h : translateAddr s.plat la .readwrite = .fault f) :
    (xlatCause n s la).fires = true ∧ (xlatCause n s la).stop = .raised (.delivered f) := by
  simp [xlatCause, h]

/-- No cause of a list given one by one fires. -/
theorem causes_none_cons (c : Cause) (cs : List Cause) :
    firstStop (c :: cs) = none ↔ c.fires = false ∧ firstStop cs = none := by
  by_cases h : c.fires = true <;> simp [firstStop_cons, h]

/-- The leaf and the premises. -/
theorem premiseCauses_none (s : State) : firstStop (premiseCauses s) = none ↔ Admitted s := by
  simp only [premiseCauses, causes_none_cons, firstStop_nil, refuseCause_fires, and_true, bne_eq_false_iff_eq,
    Bool.or_eq_false_iff, Bool.not_eq_false']
  exact ⟨fun ⟨a, ⟨b, c⟩, ⟨d, e⟩, f⟩ => ⟨a, b, c, d, e, f⟩, fun ⟨a, b, c, d, e, f⟩ => ⟨a, ⟨b, c⟩, ⟨d, e⟩, f⟩⟩

/-- The mode and segment checks. -/
theorem modeCauses_none (s : State) : firstStop (modeCauses s) = none ↔ ModeOk s := by
  simp only [modeCauses, causes_none_cons, firstStop_nil, gpCause_fires, and_true]
  constructor
  · rintro ⟨h0, h1, h2, h3, h4, h5⟩
    refine ⟨h0, fun hm => ?_, fun hm => ?_, fun hm hu => ?_, fun hm hu => ?_, fun hm hu => ?_⟩ <;> simp_all [DsExpandDown]
  · rintro ⟨h0, h1, h2, h3, h4, h5⟩
    cases hm : mode64 s <;> simp_all [DsExpandDown]

/-- The TCS address, the AEP and the TCS page. -/
theorem tcsPageCauses_none (s : State) : firstStop (tcsPageCauses s) = none ↔ TcsPageOk s := by
  simp only [tcsPageCauses, causes_none_cons, firstStop_nil, gpCause_fires, pfCause_fires, and_true,
    xlatCause_fires_eq_false, Bool.not_eq_false', Bool.or_eq_false_iff, bne_eq_false_iff_eq, Bool.and_eq_false_imp]
  constructor
  · rintro ⟨h0, h1, h2, h3, h4, h5, h6, ⟨h7, h8⟩, h9, h10⟩
    exact ⟨⟨h0, h1, h2⟩, h3, h4, ⟨h5, h6, h7, h8, h9, h10⟩⟩
  · rintro ⟨⟨h0, h1, h2⟩, h3, h4, ⟨h5, h6, h7, h8, h9, h10⟩⟩
    exact ⟨h0, h1, h2, h3, h4, h5, h6, ⟨h7, h8⟩, h9, h10⟩

/-- Bits 63:1 of `TCS.FLAGS` are all clear exactly when the mask of R178 finds none. -/
theorem flagsReserved_iff (v : Word) :
    v &&& 0xFFFFFFFFFFFFFFFE#64 = 0#64 ↔ ∀ i, 1 ≤ i → i < 64 → v.getLsbD i = false := by
  have mask : ∀ i, i < 64 → (0xFFFFFFFFFFFFFFFE#64).getLsbD i = decide (1 ≤ i) := by decide
  constructor
  · intro h i h1 h2
    have := congrArg (fun w => w.getLsbD i) h
    simpa only [BitVec.getLsbD_and, mask i h2, h1, decide_true, Bool.and_true, BitVec.getLsbD_zero] using this
  · intro h
    apply BitVec.eq_of_getLsbD_eq
    intro i hi
    rw [BitVec.getLsbD_and, mask i hi, BitVec.getLsbD_zero]
    by_cases h1 : 1 ≤ i
    · simp [h i h1 hi]
    · simp [h1]

/-- The illegal values of `XFRM`. -/
theorem xfrmIllegal_eq_false (s : State) :
    xfrmIllegal s = false ↔
      (osxsave s = false → (secsOf s).xfrm = 3#64) ∧
        (osxsave s = true → (secsOf s).xfrm &&& s.xcr0 = (secsOf s).xfrm) := by
  cases h : osxsave s <;> simp [xfrmIllegal, h]

/-- The TCS fields, the SECS and the processor configuration. -/
theorem configCauses_none (s : State) : firstStop (configCauses s) = none ↔ ConfigOk s := by
  simp only [configCauses, causes_none_cons, firstStop_nil, gpCause_fires, and_true, Bool.not_eq_false',
    Bool.or_eq_false_iff, bne_eq_false_iff_eq, flagsReserved_iff, xfrmIllegal_eq_false, beq_eq_false_iff_ne]
  constructor
  · rintro ⟨h0, ⟨h1, h2⟩, h3, h4, h5, h6, h7, ⟨h8, h9⟩, h10⟩
    exact ⟨h0, h1, h2, h3, h4, h5, h6, h7, h8, h9, h10⟩
  · rintro ⟨h0, h1, h2, h3, h4, h5, h6, h7, h8, h9, h10⟩
    exact ⟨h0, ⟨h1, h2⟩, h3, h4, h5, h6, h7, ⟨h8, h9⟩, h10⟩

/-- The checks of one page of the SSA frame. -/
theorem ssaPageCauses_none (s : State) (n : Nat) (k : PfPage) (la page : Word) :
    firstStop (ssaPageCauses s n k la page) = none ↔ SsaPageOk s la page := by
  simp only [ssaPageCauses, causes_none_cons, firstStop_nil, pfCause_fires, and_true, xlatCause_fires_eq_false,
    Bool.not_eq_false', Bool.or_eq_false_iff, bne_eq_false_iff_eq, tmpSecs]
  constructor
  · rintro ⟨h0, h1, h2, h3, ⟨h4, h5⟩, ⟨⟨⟨h6, h7⟩, h8⟩, h9⟩, h10⟩
    exact ⟨h0, h1, ⟨h2, h3, h4, h5, h6, h7, h8, h9, h10⟩⟩
  · rintro ⟨h0, h1, ⟨h2, h3, h4, h5, h6, h7, h8, h9, h10⟩⟩
    exact ⟨h0, h1, h2, h3, ⟨h4, h5⟩, ⟨⟨⟨h6, h7⟩, h8⟩, h9⟩, h10⟩

/-- The loop over the pages of the XSAVE area. -/
theorem xsaveCauses_none (s : State) : firstStop (xsaveCauses s) = none ↔ XsavePagesOk s := by
  simp only [xsaveCauses, firstStop_eq_none, List.mem_flatMap, XsavePagesOk]
  constructor
  · intro h p hp
    exact (ssaPageCauses_none s 188 .xsave _ _).1 ((firstStop_eq_none _).2 fun c hc => h c ⟨p, hp, hc⟩)
  · rintro h c ⟨p, hp, hc⟩
    exact (firstStop_eq_none _).1 ((ssaPageCauses_none s 188 .xsave _ _).2 (h p hp)) c hc

/-- The page of the GPR area and its place in DS. -/
theorem gprPageCauses_none (s : State) : firstStop (gprPageCauses s) = none ↔ GprPageOk s ∧ GprInDs s := by
  simp only [gprPageCauses, firstStop_append_eq_none, ssaPageCauses_none, causes_none_cons, firstStop_nil,
    gpCause_fires, and_true, GprPageOk, GprInDs, Bool.and_eq_false_imp, Bool.not_eq_true', decide_eq_false_iff_not,
    gt_iff_lt, BitVec.lt_def, BitVec.toNat_setWidth, not_lt]
  rw [Nat.mod_eq_of_lt (a := s.ds.limit.toNat) (by omega)]

/-- R206 and R207: a proposed segment is not within DS. -/
theorem outsideDs_eq_false (s : State) (base limit : Word) :
    outsideDs s base limit = false ↔ WithinDs s base limit := by
  have hl : s.ds.limit.toNat < 2 ^ 32 := s.ds.limit.isLt
  by_cases h : limit.toNat < base.toNat
  · simp only [outsideDs, WithinDs, BitVec.lt_def, h, if_true, decide_eq_false_iff_not, BitVec.toNat_ofNat]
    omega
  · simp only [outsideDs, WithinDs, BitVec.lt_def, h, if_false, decide_eq_false_iff_not, gt_iff_lt,
      BitVec.toNat_setWidth, not_lt]
    rw [Nat.mod_eq_of_lt (a := s.ds.limit.toNat) (by omega)]

/-- The resume address and the proposed FS and GS. -/
theorem targetCauses_none (s : State) :
    firstStop (targetCauses s) = none ↔ CheckFieldsReadable s ∧ TargetOk s ∧ SegmentsOk s := by
  have hl : s.cs.limit.toNat % 18446744073709551616 = s.cs.limit.toNat :=
    Nat.mod_eq_of_lt (lt_trans s.cs.limit.isLt (by decide))
  simp only [targetCauses, causes_none_cons, firstStop_nil, gpCause_fires, refuseCause_fires, and_true,
    Bool.not_eq_false', Bool.and_eq_false_imp, Bool.not_eq_true', outsideDs_eq_false, Bool.or_eq_false_iff]
  constructor
  · rintro ⟨h0, h1, h2, h3, h4, h5⟩
    refine ⟨⟨h0, fun h => (h4 h).1, fun h => (h4 h).2⟩, ⟨fun h => ?_, fun h => ?_⟩,
      ⟨h2, h3, fun h => (h5 h).1, fun h => (h5 h).2⟩⟩
    · simpa [h] using h1
    · simpa [h, BitVec.lt_def, hl] using h1
  · rintro ⟨⟨h0, h1, h2⟩, ⟨h3, h4⟩, ⟨h5, h6, h7, h8⟩⟩
    refine ⟨h0, ?_, h5, h6, fun h => ⟨h1 h, h2 h⟩, fun h => ⟨h7 h, h8 h⟩⟩
    cases hm : mode64 s
    · simpa [BitVec.lt_def, hl] using h4 hm
    · simpa using h3 hm

/-- Every register with an offset is among the fields the commit reads. -/
theorem commitOffsets_forall (p : Platform) (P : Nat → Prop) :
    (∀ off ∈ commitOffsets p, P off) ↔
      P p.gprLayout.rflags ∧ ∀ r off, readReg p.gprLayout.reg r = some off → P off := by
  simp only [commitOffsets, List.forall_mem_cons, List.mem_filterMap]
  refine and_congr_right fun _ => ⟨fun h r off hr => h off ⟨r, ?_, hr⟩, fun h off ⟨r, _, hr⟩ => h r off hr⟩
  cases r <;> decide

/-- Claiming the TCS, XRSTOR, and the fields the commit reads. -/
theorem claimCauses_none (s : State) :
    firstStop (claimCauses s) = none ↔
      (tcsOf s).state = .inactive ∧ xrstorFails s = false ∧ CommitFieldsReadable s := by
  have hs : ((tcsOf s).state == TcsState.active) = false ↔ (tcsOf s).state = .inactive := by
    cases (tcsOf s).state <;> decide
  have hf : (commitOffsets s.plat).all (gprFieldChecked s) = true ↔ CommitFieldsReadable s := by
    rw [List.all_eq_true, commitOffsets_forall s.plat fun off => gprFieldChecked s off = true]
    exact ⟨fun h => ⟨h.1, h.2⟩, fun h => ⟨h.1, h.2⟩⟩
  simp only [claimCauses, causes_none_cons, firstStop_nil, gpCause_fires, refuseCause_fires, and_true, hs,
    Bool.not_eq_false', hf]

/-! ### The causes from each group on -/

/-- Once the premises hold, the mode checks decide, then the rest. -/
theorem eresume_from_mode {s : State} (h : Admitted s) :
    firstStop (eresumeCauses s) =
      firstStop (modeCauses s ++ (tcsPageCauses s ++ (configCauses s ++ (xsaveCauses s ++ (gprPageCauses s ++
        (targetCauses s ++ claimCauses s)))))) := by
  simp only [eresumeCauses, List.append_assoc]
  exact firstStop_append_of_none ((premiseCauses_none s).2 h) _

theorem eresume_from_tcsPage {s : State} (h : Admitted s) (hm : ModeOk s) :
    firstStop (eresumeCauses s) =
      firstStop (tcsPageCauses s ++ (configCauses s ++ (xsaveCauses s ++ (gprPageCauses s ++
        (targetCauses s ++ claimCauses s))))) := by
  rw [eresume_from_mode h, firstStop_append_of_none ((modeCauses_none s).2 hm)]

theorem eresume_from_config {s : State} (h : Admitted s) (hm : ModeOk s) (ht : TcsPageOk s) :
    firstStop (eresumeCauses s) =
      firstStop (configCauses s ++ (xsaveCauses s ++ (gprPageCauses s ++ (targetCauses s ++ claimCauses s)))) := by
  rw [eresume_from_tcsPage h hm, firstStop_append_of_none ((tcsPageCauses_none s).2 ht)]

theorem eresume_from_xsave {s : State} (h : Admitted s) (hm : ModeOk s) (ht : TcsPageOk s) (hc : ConfigOk s) :
    firstStop (eresumeCauses s) =
      firstStop (xsaveCauses s ++ (gprPageCauses s ++ (targetCauses s ++ claimCauses s))) := by
  rw [eresume_from_config h hm ht, firstStop_append_of_none ((configCauses_none s).2 hc)]

theorem eresume_from_gprPage {s : State} (h : Admitted s) (hm : ModeOk s) (ht : TcsPageOk s) (hc : ConfigOk s)
    (hx : XsavePagesOk s) :
    firstStop (eresumeCauses s) = firstStop (gprPageCauses s ++ (targetCauses s ++ claimCauses s)) := by
  rw [eresume_from_xsave h hm ht hc, firstStop_append_of_none ((xsaveCauses_none s).2 hx)]

theorem eresume_from_target {s : State} (h : FrameOk s) :
    firstStop (eresumeCauses s) = firstStop (targetCauses s ++ claimCauses s) := by
  rw [eresume_from_gprPage h.admitted h.mode h.tcsPage h.config h.xsavePages,
    firstStop_append_of_none ((gprPageCauses_none s).2 ⟨h.gprPage, h.gprInDs⟩)]

theorem eresume_from_claim {s : State} (h : FrameOk s) (hf : CheckFieldsReadable s) (ht : TargetOk s)
    (hs : SegmentsOk s) : firstStop (eresumeCauses s) = firstStop (claimCauses s) := by
  rw [eresume_from_target h, firstStop_append_of_none ((targetCauses_none s).2 ⟨hf, ht, hs⟩)]

/-- No cause fires exactly when the execution is resumable (40_enclu_eresume_checks.md R210). -/
theorem eresumeCauses_none (s : State) : firstStop (eresumeCauses s) = none ↔ Resumable s := by
  simp only [eresumeCauses, firstStop_append_eq_none, premiseCauses_none, modeCauses_none, tcsPageCauses_none,
    configCauses_none, xsaveCauses_none, gprPageCauses_none, targetCauses_none, claimCauses_none]
  constructor
  · rintro ⟨⟨⟨⟨⟨⟨⟨h0, h1⟩, h2⟩, h3⟩, h4⟩, h5, h6⟩, h7, h8, h9⟩, h10, h11, h12⟩
    exact ⟨⟨⟨h0, h1, h2, h3, h4, h5, h6⟩, h7, h8, h9, h10⟩, h11, h12⟩
  · rintro ⟨⟨⟨h0, h1, h2, h3, h4, h5, h6⟩, h7, h8, h9, h10⟩, h11, h12⟩
    exact ⟨⟨⟨⟨⟨⟨⟨h0, h1⟩, h2⟩, h3⟩, h4⟩, h5, h6⟩, h7, h8, h9⟩, h10, h11, h12⟩

/-- What an execution that enters the enclave is: the instruction was resumable, and the state is the commit. -/
theorem exec_enclu_eq_next {s t : State} : exec .enclu s = .next t ↔ Resumable s ∧ t = commit s := by
  rw [exec_enclu, execEnclu_eq_next, eresumeCauses_none]

/-- ERESUME runs on every resumable state. -/
theorem exec_enclu_of_resumable {s : State} (h : Resumable s) : exec .enclu s = .next (commit s) :=
  exec_enclu_eq_next.2 ⟨h, rfl⟩

/-- A step that gives a next state executed ERESUME. -/
theorem step_eq_next {s t : State} (h : step s = .next t) : Resumable s ∧ t = commit s := by
  unfold step at h
  split at h
  · simp at h
  · rename_i i _
    cases i
    exact exec_enclu_eq_next.1 h

/-! ### What each stop is -/

/-- A fault changes nothing but the counters and the model's bookkeeping. -/
theorem sameMachine_tick (s : State) : SameMachine s (tick s) := rfl

theorem endsInGp_of_stop {s : State} (h : firstStop (eresumeCauses s) = some (.raised .gp)) : EndsInGp s :=
  ⟨tick s, by rw [exec_enclu, execEnclu_of_stop h]; rfl, sameMachine_tick s⟩

theorem endsInPf_of_stop {s : State} {la : Word} {c : PfCause}
    (h : firstStop (eresumeCauses s) = some (.raised (.pf la c))) : EndsInPf s la :=
  ⟨_, tick s, by rw [exec_enclu, execEnclu_of_stop h]; rfl, sameMachine_tick s⟩

theorem endsInTranslationFault_of_stop {s : State} {f : DeliveredFault}
    (h : firstStop (eresumeCauses s) = some (.raised (.delivered f))) : EndsInTranslationFault s f :=
  ⟨tick s, by rw [exec_enclu, execEnclu_of_stop h]; rfl, sameMachine_tick s⟩

/-- A group of `#GP(0)` causes of which one fires stops with `#GP(0)`. -/
theorem firstStop_eq_gp {cs : List Cause} (hs : ∀ c ∈ cs, c.stop = .raised .gp) (h : firstStop cs ≠ none) :
    firstStop cs = some (.raised .gp) := by
  cases hf : firstStop cs with
  | none => exact absurd hf h
  | some st =>
    obtain ⟨c, hc, -, he⟩ := firstStop_some_mem hf
    rw [← he, hs c hc]

/-- Every mode and segment check ends in `#GP(0)`. -/
theorem modeCauses_stop (s : State) : ∀ c ∈ modeCauses s, c.stop = .raised .gp := by simp [modeCauses]

/-- Every check of the TCS fields, the SECS and the configuration ends in `#GP(0)`. -/
theorem configCauses_stop (s : State) : ∀ c ∈ configCauses s, c.stop = .raised .gp := by simp [configCauses]

/-- An XRSTOR failure ends in the state the instruction began in, but for `XSTATE`: the claim of the TCS is undone
(41_enclu_eresume_commit.md R233). -/
theorem release_claim (s : State) (h : Sparse.wf Tcs.blank s.tcs = true) (hi : (tcsOf s).state = .inactive) :
    releaseTcs (claimTcs s) = s := by
  have hget : tcsOf (claimTcs s) = { tcsOf s with state := .active } := by
    show Sparse.get Tcs.blank (Sparse.set Tcs.blank s.tcs (tcsKey s) _) (tcsKey s) = _
    rw [sparse_get_set _ _ _ _ _ h, if_pos rfl]
  have hback : ({ tcsOf (claimTcs s) with state := .inactive } : Tcs) = tcsOf s := by
    rw [hget, ← hi]
  have htcs : (releaseTcs (claimTcs s)).tcs = s.tcs := by
    show Sparse.set Tcs.blank (Sparse.set Tcs.blank s.tcs (tcsKey s) _) (tcsKey s) _ = _
    rw [hback]
    exact sparse_set_set_back _ _ _ _ h
  calc releaseTcs (claimTcs s) = { s with tcs := (releaseTcs (claimTcs s)).tcs } := rfl
    _ = s := by rw [htcs]

end Sys2Proof.Machine
end

