-- ==== Sys2Proof/Laws/Flags.lean ====
section
/-! SUPPORT. `RFLAGS` bit by bit: what `withBit`, `copyFlags` and `mergeRflags` make of each bit. -/

namespace Sys2Proof.Machine

/-- Setting one bit, read bit by bit. -/
theorem getLsbD_withBit (v : Word) (i j : Nat) (b : Bool) (hi : i < 64) :
    (withBit v i b).getLsbD j = if i = j then b else v.getLsbD j := by
  have one : (BitVec.twoPow 64 i).getLsbD j = decide (i = j) := by
    rw [BitVec.getLsbD_twoPow]; simp [hi]
  by_cases hj : j < 64
  · cases b <;>
      simp only [withBit, Bool.false_eq_true, if_true, if_false, BitVec.getLsbD_or, BitVec.getLsbD_and,
        BitVec.getLsbD_not, one, hj, decide_true, Bool.true_and] <;>
      by_cases hij : i = j <;> simp [hij]
  · have hv : v.getLsbD j = false := BitVec.getLsbD_of_ge v j (by omega)
    have hij : i ≠ j := by omega
    rw [BitVec.getLsbD_of_ge _ j (by omega), if_neg hij, hv]

theorem flag_pos_lt (f : Flag) : f.pos < 64 := by cases f <;> decide

theorem flag_pos_inj {f g : Flag} (h : f.pos = g.pos) : f = g := by
  revert h; cases f <;> cases g <;> decide

/-- Copying flags, read bit by bit. -/
theorem getLsbD_copyFlags (saved : Word) (fs : List Flag) (v : Word) (j : Nat) :
    (copyFlags saved fs v).getLsbD j = if (fs.map Flag.pos).contains j then saved.getLsbD j else v.getLsbD j := by
  induction fs generalizing v with
  | nil => simp [copyFlags]
  | cons f fs ih =>
    rw [copyFlags, ih, getLsbD_withBit _ _ _ _ (flag_pos_lt f)]
    by_cases hj : j = f.pos
    · subst hj; simp [flag]
    · have : ¬ f.pos = j := fun h => hj h.symm
      simp [this, hj]

/-- The positions of the eleven flags restored without a condition. -/
theorem restoredFlags_pos : restoredFlags.map Flag.pos = [0, 2, 4, 6, 7, 10, 11, 14, 18, 21, 16] := rfl

/-- `RFLAGS` after a successful ERESUME, read bit by bit (41_enclu_eresume_commit.md R244 to R249). -/
theorem getLsbD_mergeRflags (old saved : Word) (optIn : Bool) (j : Nat) :
    (mergeRflags old saved optIn).getLsbD j =
      if j = 8 then optIn && old.getLsbD 8
      else if j = 9 then (if iopl old = 3#2 then saved.getLsbD 9 else old.getLsbD 9)
      else if j = 17 then false
      else if [0, 2, 4, 6, 7, 10, 11, 14, 18, 21, 16].contains j then saved.getLsbD j
      else old.getLsbD j := by
  have tf : Flag.tf.pos = 8 := rfl
  have vm : Flag.vm.pos = 17 := rfl
  have fi : Flag.if_.pos = 9 := rfl
  by_cases h8 : j = 8
  · subst h8
    cases optIn <;> by_cases hi : iopl old = 3#2 <;>
      simp only [mergeRflags, hi, if_true, if_false, getLsbD_withBit _ _ _ _ (by decide : 8 < 64),
        getLsbD_withBit _ _ _ _ (by decide : 9 < 64), getLsbD_withBit _ _ _ _ (by decide : 17 < 64),
        getLsbD_copyFlags, restoredFlags_pos, tf, vm, fi, Bool.false_eq_true, Bool.false_and, Bool.true_and,
        (by decide : ¬ 9 = 8), (by decide : ¬ 17 = 8),
        (by decide : ¬ [0, 2, 4, 6, 7, 10, 11, 14, 18, 21, 16].contains 8 = true)]
  · by_cases h9 : j = 9
    · subst h9
      cases optIn <;> by_cases hi : iopl old = 3#2 <;>
        simp only [mergeRflags, hi, if_true, if_false, getLsbD_withBit _ _ _ _ (by decide : 8 < 64),
          getLsbD_withBit _ _ _ _ (by decide : 9 < 64), getLsbD_withBit _ _ _ _ (by decide : 17 < 64),
          getLsbD_copyFlags, restoredFlags_pos, tf, vm, fi, Bool.false_eq_true, flag,
          (by decide : ¬ 8 = 9), (by decide : ¬ 9 = 8), (by decide : ¬ 17 = 9),
          (by decide : ¬ [0, 2, 4, 6, 7, 10, 11, 14, 18, 21, 16].contains 9 = true)]
    · have a : ¬ 8 = j := fun h => h8 h.symm
      have b : ¬ 9 = j := fun h => h9 h.symm
      have c : (17 = j) ↔ (j = 17) := eq_comm
      cases optIn <;> by_cases hi : iopl old = 3#2 <;>
        simp only [mergeRflags, hi, if_true, if_false, getLsbD_withBit _ _ _ _ (by decide : 8 < 64),
          getLsbD_withBit _ _ _ _ (by decide : 9 < 64), getLsbD_withBit _ _ _ _ (by decide : 17 < 64),
          getLsbD_copyFlags, restoredFlags_pos, tf, vm, fi, a, b, h8, h9, c, Bool.false_eq_true] <;> rfl

/-- `IOPL` is bits 13 and 12. -/
theorem iopl_eq_of_bits {v w : Word} (h12 : v.getLsbD 12 = w.getLsbD 12) (h13 : v.getLsbD 13 = w.getLsbD 13) :
    iopl v = iopl w := by
  apply BitVec.eq_of_getLsbD_eq
  intro i hi
  have : i = 0 ∨ i = 1 := by omega
  rcases this with rfl | rfl <;>
    simp only [iopl, BitVec.getLsbD_setWidth, BitVec.getLsbD_ushiftRight, Nat.add_zero, h12, h13, Nat.reduceAdd]

/-- The fixed bits of `RFLAGS` (10_state.md R26), bit by bit. -/
theorem rflagsFixed_iff (v : Word) :
    rflagsFixed v = true ↔
      v.getLsbD 1 = true ∧ v.getLsbD 3 = false ∧ v.getLsbD 5 = false ∧ v.getLsbD 15 = false ∧
        ∀ i, 22 ≤ i → v.getLsbD i = false := by
  have mask : ∀ i, i < 64 → (0xFFFFFFFFFFC0802A#64).getLsbD i =
      decide (i = 1 ∨ i = 3 ∨ i = 5 ∨ i = 15 ∨ 22 ≤ i) := by decide
  have two : ∀ i, i < 64 → (2#64).getLsbD i = decide (i = 1) := by decide
  simp only [rflagsFixed, beq_iff_eq]
  constructor
  · intro h
    have bit : ∀ i, i < 64 → (v.getLsbD i && decide (i = 1 ∨ i = 3 ∨ i = 5 ∨ i = 15 ∨ 22 ≤ i)) = decide (i = 1) := by
      intro i hi
      rw [← mask i hi, ← two i hi, ← h, BitVec.getLsbD_and]
    refine ⟨by simpa using bit 1 (by decide), by simpa using bit 3 (by decide), by simpa using bit 5 (by decide),
      by simpa using bit 15 (by decide), fun i hi => ?_⟩
    by_cases h64 : i < 64
    · have := bit i h64
      simp only [hi, or_true, decide_true, Bool.and_true] at this
      rw [this]; simp; omega
    · exact BitVec.getLsbD_of_ge v i (by omega)
  · rintro ⟨h1, h3, h5, h15, hr⟩
    apply BitVec.eq_of_getLsbD_eq
    intro i hi
    rw [BitVec.getLsbD_and, mask i hi, two i hi]
    by_cases c1 : i = 1
    · subst c1; simp [h1]
    · by_cases c : i = 3 ∨ i = 5 ∨ i = 15 ∨ 22 ≤ i
      · have : v.getLsbD i = false := by
          rcases c with rfl | rfl | rfl | c
          · exact h3
          · exact h5
          · exact h15
          · exact hr i c
        simp [this, c1]
      · simp [c1, c]

end Sys2Proof.Machine
end

