-- ==== Sys2Proof/Laws/Operands.lean ====
section
/-! SUPPORT. The forming of addresses as arithmetic on natural numbers, overlap with ELRANGE, and the rights of the new FS and GS. -/

namespace Sys2Proof.Machine

/-- An effective address is reduced modulo 2^64 or 2^32 (20_memory.md R92). -/
theorem toNat_ea (m64 : Bool) (v : Word) : (ea m64 v).toNat = v.toNat % 2 ^ (if m64 then 64 else 32) := by
  cases m64
  · simp only [ea, low32, Bool.false_eq_true, if_false, BitVec.toNat_setWidth]
    exact Nat.mod_eq_of_lt (lt_trans (Nat.mod_lt _ (by decide)) (by decide))
  · simpa only [ea, if_true] using (Nat.mod_eq_of_lt v.isLt).symm

/-- `LA(seg, off) = off` in 64-bit mode (20_memory.md R93). -/
@[simp] theorem linear_true (seg : Segment) (off : Word) : linear true seg off = off := rfl

/-- With a base of 0 the linear address of an effective address is that address (20_memory.md R93). -/
theorem linear_ea_of_base_zero (m64 : Bool) {seg : Segment} (h : m64 = false → seg.base = 0#64) (v : Word) :
    linear m64 seg (ea m64 v) = ea m64 v := by
  cases m64
  · simp [linear, ea, low32, h rfl]
  · rfl

/-- Past the segment checks `LA(DS, off) = off` (20_memory.md R93). -/
theorem dsLinear_ea {s : State} (h : ModeOk s) (v : Word) : dsLinear s (ea (mode64 s) v) = ea (mode64 s) v :=
  linear_ea_of_base_zero _ (fun hm => (h.codeDataFlat hm).2) v

/-- The page of an address, as a number. -/
theorem toNat_pageOf (v : Word) : (pageOf v).toNat = v.toNat / 4096 * 4096 := by
  have mask : ∀ i, i < 64 → (0xFFFFFFFFFFFFF000#64).getLsbD i = decide (12 ≤ i) := by decide
  have : pageOf v = (v >>> 12) <<< 12 := by
    apply BitVec.eq_of_getLsbD_eq
    intro i hi
    simp only [pageOf, BitVec.getLsbD_and, mask i hi, BitVec.getLsbD_shiftLeft, BitVec.getLsbD_ushiftRight]
    by_cases h : i < 12
    · simp [h]
    · simp [h, show 12 ≤ i by omega, show 12 + (i - 12) = i by omega, hi]
  rw [this, BitVec.toNat_shiftLeft, BitVec.toNat_ushiftRight, Nat.shiftRight_eq_div_pow, Nat.shiftLeft_eq]
  have := v.isLt
  omega

/-- The offset of an address in its page, as a number. -/
theorem toNat_setWidth_12 (v : Word) : (v.setWidth 12).toNat = v.toNat % 4096 := by simp

/-- The size of an SSA frame never wraps. -/
theorem toNat_frameBytes (s : State) : (frameBytes s).toNat = 4096 * (secsOf s).ssaframesize.toNat := by
  have := (secsOf s).ssaframesize.isLt
  simp only [frameBytes, BitVec.toNat_mul, BitVec.toNat_setWidth, BitVec.toNat_ofNat]
  omega

/-- `XSAVE_SIZE` is at least 536 whatever the parameter gives (40_enclu_eresume_checks.md R186). -/
theorem le_toNat_xsaveSize (p : Config.Platform) (m : Word) : 536 ≤ (xsaveSize p m).toNat := by
  simp only [xsaveSize]
  split
  · decide
  · rename_i h
    simpa [BitVec.lt_def] using h

/-- Bytes overlap ELRANGE exactly when one of them is in it (10_state.md R39). -/
theorem overlapsElrange_iff (e : Elrange) (lo len : Nat) :
    overlapsElrange e lo len = true ↔
      ∃ a, lo ≤ a ∧ a < lo + len ∧ e.base.toNat ≤ a ∧ a < e.base.toNat + e.size.toNat := by
  rw [overlapsElrange, decide_eq_true_iff]
  exact ⟨fun h => ⟨max lo e.base.toNat, by omega, by omega, by omega, by omega⟩, by rintro ⟨a, h⟩; omega⟩

/-- The type of the new FS and GS is `0, 0, DS.W, 1`, bit 3 to bit 0 (92_eei_decisions.md D28). -/
theorem newSegRights_typ (s : State) :
    (newSegRights s).typ.getLsbD 0 = true ∧ (newSegRights s).typ.getLsbD 1 = segW s.ds.ar ∧
      (newSegRights s).typ.getLsbD 2 = false ∧ (newSegRights s).typ.getLsbD 3 = false := by
  show (if segW s.ds.ar then 3#4 else 1#4).getLsbD 0 = true ∧ (if segW s.ds.ar then 3#4 else 1#4).getLsbD 1 = _ ∧
    (if segW s.ds.ar then 3#4 else 1#4).getLsbD 2 = false ∧ (if segW s.ds.ar then 3#4 else 1#4).getLsbD 3 = false
  cases segW s.ds.ar <;> decide

/-- What a `Translate` that yields a page yields is `PA` (00_scope.md R11). -/
theorem translateAddr_paOf {s : State} {la : Word} (h : ∃ pa, translateAddr s.plat la .readwrite = .ok pa) :
    translateAddr s.plat la .readwrite = .ok (paOf s la) := by
  obtain ⟨pa, h⟩ := h
  simp [paOf, h]

end Sys2Proof.Machine
end

