-- ==== Sys2Proof/Tests/Slice0.lean ====
section
/-! SUPPORT. Tests against the vectors of 95_test_vectors.md, and for every obligation with hypotheses a witness that
they can be met together. The states are IMAGE64 with CALLER64 (program P1) and the start state of program P2, with
the parameter values that file names. -/

namespace Sys2Proof.Tests

set_option Elab.async false

open Sys2Proof Sys2Proof.Machine Sys2Proof.Config

/-! ### Builders -/

/-- A page that translates to one frame for every access. -/
def mapTo (frame : BitVec 52) : PageXlat := { onRead := .ok frame, onWrite := .ok frame, onReadWrite := .ok frame }

/-- The `n` bytes of a little-endian field as memory cells, the zero bytes left out. -/
def cells (a n w : Nat) : List Host.Cell :=
  (List.range n).filterMap fun i =>
    if BitVec.ofNat 8 (w >>> (8 * i)) = 0#8 then none else some (a + i, BitVec.ofNat 8 (w >>> (8 * i)))

/-- A GPR area at physical address `a`: the fields of 10_state.md R73, 8 bytes each. -/
def gprArea (a : Nat) (fields : List Nat) : List Host.Cell :=
  (fields.zipIdx).flatMap fun p => cells (a + 8 * p.2) 8 p.1

/-- The passing EPCM entry of a TCS page (95_test_vectors.md 2.10). -/
def tcsEntry (la secs : Word) : EpcmEntry :=
  { valid := true, blocked := false, pending := false, modified := false, enclaveAddress := la, pt := .ptTcs
    enclaveSecs := secs, r := false, w := false }

/-- The passing EPCM entry of an SSA page (95_test_vectors.md 2.10). -/
def ssaEntry (la secs : Word) : EpcmEntry :=
  { valid := true, blocked := false, pending := false, modified := false, enclaveAddress := la, pt := .ptReg
    enclaveSecs := secs, r := true, w := true }

/-- A flat, usable, writable segment of privilege level 3. -/
def flat (code : Bool) (avl l : Bool) : Segment :=
  { selector := 0x33#16, base := 0#64, limit := 0xFFFFFFFF#32
    ar := { typ := if code then 0xB#4 else 3#4, s := true, dpl := 3#2, p := true, avl := avl, l := l, b := !l
            g := true, unusable := false } }

/-- The bytes of `ENCLU` at the program's physical address. -/
def enclu401234 : List Host.Cell := [(0x401234, 0x0F#8), (0x401235, 0x01#8), (0x401236, 0xD7#8)]

/-! ### IMAGE64 and CALLER64 -/

def tcs64 : Tcs :=
  { state := .inactive, flags := 0#64, ossa := 0x3000#64, cssa := 2#32, aep := 0#64, ofsbase := 0x8000#64
    ogsbase := 0x9000#64, fslimit := 0xFFF#32, gslimit := 0xFFF#32 }

def secs64 : Secs :=
  { init := true, mode64bit := true, xfrm := 3#64, baseaddr := 0x7F0000000000#64, size := 0x100000#64
    ssaframesize := 2#32 }

def plat64 : Platform :=
  { Platform.default with
    epc := [{ first := 0x80000, count := 0x100 }]
    xlat :=
      { pages := [(0x401, mapTo 0x401#52), (0x7F0000001, mapTo 0x80001#52), (0x7F0000003, mapTo 0x00003#52),
          (0x7F0000005, mapTo 0x80005#52), (0x7F0000006, mapTo 0x80006#52)]
        unlisted := { cls := .pageFault, errorCode := 6#32, address := .accessed } } }

/-- The GPR area of IMAGE64, with a saved `RIP` and saved FS and GS bases. -/
def gpr64 (rip fsbase gsbase : Nat) : List Host.Cell :=
  gprArea 0x80006F48
    [0x1111111111111111, 0x2222222222222222, 0x3333333333333333, 0x4444444444444444, 0x7F00000FF000, 0x7F00000FF100,
      0x6666666666666666, 0x7777777777777777, 8, 9, 10, 11, 12, 13, 14, 15, 0xB93, rip, 0, 0, 0, fsbase, gsbase]

/-- The memory of IMAGE64 with the eight bytes at offset 512 of the XSAVE area as given, and further cells. -/
def mem64 (header : Nat) (gpr : List Host.Cell) : List Host.Cell :=
  enclu401234 ++ (cells 0x80005200 24 header ++ gpr)

def goodGpr64 : List Host.Cell := gpr64 0x7F0000010040 0x7F0000008000 0x7F0000009000

/-- The start state of program P1; two sibling threads, one counting in AnyThread mode. -/
def p1 : State :=
  { State.reset with
    gpr := { State.reset.gpr with rax := 3#64, rbx := 0x7F0000001000#64, rcx := 0x401234#64 }
    rip := 0x401234#64
    rflags := 0x346#64
    cs := flat true false true
    ds := flat false false false
    fs := { flat false false false with selector := 0#16, base := 0x7FFFF7FD0000#64 }
    gs := { flat false false false with selector := 0#16 }
    efer := 0x400#64
    cr4 := 0x40200#64
    xcr0 := 7#64
    dbg := { State.reset.dbg with pendingDbg := [.dataBreakpoint], pendingMtfVmexit := true }
    siblings :=
      [{ countsAnyThread := true, anyThreadDemoted := false, perfGlobalStatus := 5#64 },
        { countsAnyThread := false, anyThreadDemoted := false, perfGlobalStatus := 5#64 }]
    monitorArmed := true
    tlb := [{ page := 0x401#52, frame := 0x401#52 }]
    mem := mem64 3 goodGpr64
    tcs := [(0x80001, tcs64)]
    secs := [(0x80000000, secs64)]
    epcm :=
      [(0x80001, tcsEntry 0x7F0000001000#64 0x80000000#64), (0x80005, ssaEntry 0x7F0000005000#64 0x80000000#64),
        (0x80006, ssaEntry 0x7F0000006000#64 0x80000000#64)]
    prem := premisesMet
    plat := plat64
    oracle := { tcsLockConflict := false, secsBusy := false, perfmonSuppressedAny := true } }

/-! ### The start state of P2 -/

def tcs32 : Tcs :=
  { state := .inactive, flags := 1#64, ossa := 0x2000#64, cssa := 3#32, aep := 0#64, ofsbase := 0x5000#64
    ogsbase := 0x6000#64, fslimit := 0xFFF#32, gslimit := 0x1FFF#32 }

def secs32 : Secs :=
  { init := true, mode64bit := false, xfrm := 3#64, baseaddr := 0x10000000#64, size := 0x100000#64
    ssaframesize := 1#32 }

/-- The GPR area of P2 with a saved `RIP`. -/
def gpr32 (rip : Nat) : List Host.Cell :=
  gprArea 0x80014F48 [0xA, 0xB, 0xC, 0xD, 0x100FF000, 0x100FF010, 0xE, 0xF, 0, 0, 0, 0, 0, 0, 0, 0, 0x254CD5, rip]

/-- The start state of program P2. -/
def p2 : State :=
  { State.reset with
    gpr := { State.reset.gpr with rax := 3#64, rbx := 0x10001000#64, rcx := 0x401234#64 }
    rip := 0x401234#64
    rflags := 0x3302#64
    cs := flat true false false
    ds := flat false true false
    es := flat false false false
    ss := flat false false false
    fs := { flat false false false with base := 0x7FFD0000#64, limit := 0xFFF#32 }
    gs := { flat false false false with selector := 0#16, ar := { (flat false false false).ar with unusable := true } }
    cr4 := 0x200#64
    xcr0 := 7#64
    mem := enclu401234 ++ (cells 0x80014200 8 1 ++ gpr32 0x10010040)
    tcs := [(0x80011, tcs32)]
    secs := [(0x80010000, secs32)]
    epcm :=
      [(0x80011, tcsEntry 0x10001000#64 0x80010000#64), (0x80014, ssaEntry 0x10004000#64 0x80010000#64)]
    prem := premisesMet
    plat :=
      { plat64 with
        xlat :=
          { plat64.xlat with
            pages := [(0x401, mapTo 0x401#52), (0x10001, mapTo 0x80011#52), (0x10004, mapTo 0x80014#52)] } } }

/-! ### Observers -/

/-- The next state has a property. -/
def onNext (o : Host.Outcome State Fault Refusal) (f : State → Bool) : Bool :=
  match o with
  | .next t => f t
  | .fault _ => false
  | .refused _ => false

/-- The TCS of a state at a page. -/
def tcsAt (t : State) (page : Nat) : Tcs := Sparse.get Tcs.blank t.tcs page

/-! ### Decoding -/

/-- 30_encoding.md R132: `0F 01 D7`, first as bits (00001111 00000001 11010111). -/
theorem test_decode_enclu :
    decode [0b00001111#8, 0b00000001#8, 0b11010111#8, 0x90#8] = .ok (.enclu, [0x90#8]) := by decide

/-- The opcode table's number for the row. -/
theorem test_decode_table_word : decodeTableWord 24 0x0F01D7 = some .enclu := by decide

/-- A neighbour (`0F 01 CF`) and a prefixed form are rejected by name (30_encoding.md R138). -/
theorem test_decode_rejects :
    decode [0x0F#8, 0x01#8, 0xCF#8] = .error (.notInTable 0x0F#8 0x01#8 0xCF#8) ∧
      decode [0x66#8, 0x0F#8, 0x01#8, 0xD7#8] = .error (.prefixed 0x66#8) ∧ decode [0x0F#8] = .error .truncated := by
  decide

/-- No term of `Instr` is ill formed (30_encoding.md R134), so the smoke test is that every term passes. -/
theorem test_every_term_is_well_formed : ∀ i : Instr, i.wellFormed = true := by
  intro i; cases i; rfl

/-! ### One step: P1 and P2 of 95_test_vectors.md -/

/-- P1: 64-bit opt-out resume. -/
theorem test_p1 : onNext (step p1) (fun t =>
    t.rip == 0x7F0000010040#64 && t.rflags == 0xA93#64 && t.gpr.rax == 0x1111111111111111#64 &&
    t.gpr.rsp == 0x7F00000FF000#64 && t.gpr.r15 == 15#64 && t.xcr0 == 3#64 && t.cr.saveXcr0 == 7#64 &&
    t.fs.base == 0x7F0000008000#64 && t.gs.base == 0x7F0000009000#64 && t.fs.limit == 0xFFF#32 &&
    t.fs.ar.typ == 3#4 && t.fs.selector == 0xB#16 && t.cr.saveFs == p1.fs && t.cr.saveGs == p1.gs &&
    t.cr.activeSecs == 0x80000000#64 && t.cr.tcsPa == 0x80001000#64 && t.cr.tcsLa == 0x7F0000001000#64 &&
    t.cr.gprPa == 0x80006F48#64 && t.cr.xsavePages == [0x80005000#64] && !t.cr.saveTf && !t.cr.dbgOptIn &&
    t.dbg == ⟨true, true, true, [], false, true⟩ && t.perf.globalStatus == 0x9000000000000000#64 &&
    t.siblings == [⟨true, true, 0x1000000000000005#64⟩, ⟨false, false, 5#64⟩] && t.tlb == [] && !t.monitorArmed &&
    tcsAt t 0x80001 == { tcs64 with state := .active, aep := 0x401234#64, cssa := 1#32 }) = true := by
  decide +kernel

/-- P2: 32-bit opt-in resume, FS and GS from the TCS. -/
theorem test_p2 : onNext (step p2) (fun t =>
    t.rip == 0x10010040#64 && t.rflags == 0x257DD7#64 && t.gpr.rax == 10#64 && t.gpr.rsp == 0x100FF000#64 &&
    t.gpr.r15 == 0#64 && t.xcr0 == 7#64 && t.cr.saveXcr0 == 0#64 && t.fs.base == 0x10005000#64 &&
    t.gs.base == 0x10006000#64 && t.fs.limit == 0xFFF#32 && t.gs.limit == 0x1FFF#32 &&
    t.fs.ar == ⟨3#4, true, 3#2, true, true, false, true, true, false⟩ && t.gs.ar == t.fs.ar &&
    t.cr.saveFs == p2.fs && t.cr.saveGs == p2.gs && t.cr.elrange == ⟨0x10000000#64, 0x100000#64⟩ &&
    t.cr.tcsPa == 0x80011000#64 && t.cr.gprPa == 0x80014F48#64 && t.cr.xsavePages == [0x80014000#64] &&
    t.cr.dbgOptIn && t.dbg == ⟨true, false, false, [.singleStep], false, false⟩ && t.perf.globalStatus == 0#64 && !t.perf.perfmonSuppressed && !t.perf.pebsSuppressed &&
    tcsAt t 0x80011 == { tcs32 with state := .active, aep := 0x401234#64, cssa := 2#32 }) = true := by
  decide +kernel

/-! ### Vectors of the shared operations -/

/-- 95_test_vectors.md 2.15, the flag merge. -/
theorem test_flag_merge :
    [mergeRflags 0x346#64 0xB93#64 false, mergeRflags 0x346#64 0xB93#64 true, mergeRflags 0x3302#64 0x254CD5#64 false,
      mergeRflags 0x3302#64 0x274CD5#64 true, mergeRflags 0x202#64 0#64 false, mergeRflags 0x3202#64 2#64 false,
      mergeRflags 0x183002#64 0xFFFFFFFFFFFFFFFF#64 false] =
    [0xA93#64, 0xB93#64, 0x257CD7#64, 0x257DD7#64, 0x202#64, 0x3002#64, 0x3D7ED7#64] := by decide +kernel

/-- 95_test_vectors.md 2.5, the canonical test. -/
theorem test_canonical :
    [0#64, 0x7FFFFFFFFFFF#64, 0x800000000000#64, 0x7F0000010040#64, 0x8000000000000000#64, 0xFFFF7FFFFFFFFFFF#64,
      0xFFFF800000000000#64, 0xFFFFFFFFFFFFFFFF#64].map (canonical 48) =
    [true, true, false, true, false, false, true, true] := by decide +kernel

/-- 95_test_vectors.md 2.8, the SSA frame and the GPR area: frame 255, the wrap modulo 2^32, a frame size of 0. -/
theorem test_ssa_addresses :
    ([{ p1 with tcs := [(0x80001, { tcs64 with cssa := 0x100#32 })] },
      { p2 with tcs := [(0x80011, { tcs32 with ossa := 0x1000#64, cssa := 2#32 })]
                secs := [(0x80010000, { secs32 with baseaddr := 0xFFFFE000#64 })] },
      { p1 with tcs := [(0x80001, { tcs64 with cssa := 5#32 })]
                secs := [(0x80000000, { secs64 with ssaframesize := 0#32 })] }].map
        fun s : State => (tmpSsa s, tmpGpr s)) =
    [(0x7F0000201000#64, 0x7F0000202F48#64), (0#64, 0xF48#64), (0x7F0000003000#64, 0x7F0000002F48#64)] := by
  decide +kernel

/-- 95_test_vectors.md 2.9, the pages of the XSAVE loop: offset of the frame in its page, size, number of pages. -/
theorem test_page_counts :
    [(0x5000#64, 536), (0x5000#64, 576), (0x5000#64, 4096), (0x5000#64, 4097), (0x5000#64, 8192), (0x5800#64, 2048),
      (0x5800#64, 2049), (0x5FFF#64, 536)].map (fun p => pageCount p.1 p.2) = [1, 1, 1, 2, 2, 1, 2, 2] := by
  decide +kernel

/-! ### From evaluation to the conditions of Safety -/

theorem admitted_of {s : State} (h : firstStop (premiseCauses s) = none) : Admitted s := (premiseCauses_none s).1 h
theorem mode_of {s : State} (h : firstStop (modeCauses s) = none) : ModeOk s := (modeCauses_none s).1 h
theorem tcs_of {s : State} (h : firstStop (tcsPageCauses s) = none) : TcsPageOk s := (tcsPageCauses_none s).1 h
theorem config_of {s : State} (h : firstStop (configCauses s) = none) : ConfigOk s := (configCauses_none s).1 h
theorem xsave_of {s : State} (h : firstStop (xsaveCauses s) = none) : XsavePagesOk s := (xsaveCauses_none s).1 h

/-- Every check up to R174. -/
theorem upToTcs_of {s : State} (h : firstStop (premiseCauses s ++ modeCauses s ++ tcsPageCauses s) = none) :
    Admitted s ∧ ModeOk s ∧ TcsPageOk s := by
  simpa only [firstStop_append_eq_none, premiseCauses_none, modeCauses_none, tcsPageCauses_none, and_assoc] using h

/-- Every check up to R184. -/
theorem upToConfig_of {s : State}
    (h : firstStop (premiseCauses s ++ modeCauses s ++ tcsPageCauses s ++ configCauses s) = none) :
    Admitted s ∧ ModeOk s ∧ TcsPageOk s ∧ ConfigOk s := by
  simpa only [firstStop_append_eq_none, premiseCauses_none, modeCauses_none, tcsPageCauses_none, configCauses_none,
    and_assoc] using h

/-- Every check up to R202. -/
theorem frame_of {s : State} (h : firstStop (premiseCauses s ++ modeCauses s ++ tcsPageCauses s ++ configCauses s ++
    xsaveCauses s ++ gprPageCauses s) = none) : FrameOk s := by
  simp only [firstStop_append_eq_none, premiseCauses_none, modeCauses_none, tcsPageCauses_none, configCauses_none,
    xsaveCauses_none, gprPageCauses_none] at h
  obtain ⟨⟨⟨⟨⟨h0, h1⟩, h2⟩, h3⟩, h4⟩, h5, h6⟩ := h
  exact ⟨h0, h1, h2, h3, h4, h5, h6⟩

theorem target_of {s : State} (h : firstStop (targetCauses s) = none) :
    CheckFieldsReadable s ∧ TargetOk s ∧ SegmentsOk s := (targetCauses_none s).1 h

theorem resumable_of {s : State} (h : firstStop (eresumeCauses s) = none) : Resumable s := (eresumeCauses_none s).1 h

/-! ### Witnesses: the states of P1 and P2 -/

/-- P1 resumes, opt-out. -/
theorem p1_resumable : Resumable p1 := resumable_of (by decide +kernel)

/-- P2 resumes, opt-in. -/
theorem p2_resumable : Resumable p2 := resumable_of (by decide +kernel)

/-- The tables of P1 are canonical. -/
theorem p1_canonical : Canonical p1 :=
  ⟨by decide +kernel, by decide +kernel, by decide +kernel, by decide +kernel⟩

/-- P1 with another TCS. -/
def p1Tcs (t : Tcs) : State := { p1 with tcs := [(0x80001, t)] }

/-- P1 with another SECS. -/
def p1Secs (c : Secs) : State := { p1 with secs := [(0x80000000, c)] }

/-- P1 with another EPCM entry of the TCS page. -/
def p1TcsEntry (e : EpcmEntry) : State := { p1 with epcm := (0x80001, e) :: p1.epcm.drop 1 }

/-- P1 with another EPCM entry of the page of the XSAVE area. -/
def p1XsaveEntry (e : EpcmEntry) : State := { p1 with epcm := p1.epcm.take 1 ++ (0x80005, e) :: p1.epcm.drop 2 }

/-- P1 with another EPCM entry of the page of the GPR area. -/
def p1GprEntry (e : EpcmEntry) : State := { p1 with epcm := p1.epcm.take 2 ++ [(0x80006, e)] }

/-- P1 with other translations. -/
def p1Xlat (pages : List (Nat × PageXlat)) : State :=
  { p1 with plat := { p1.plat with xlat := { p1.plat.xlat with pages := pages } } }

/-- P1 with another eight bytes from offset 512 on and another GPR area. -/
def p1Mem (header : Nat) (gpr : List Host.Cell) : State := { p1 with mem := mem64 header gpr }

/-- P1 with another `RBX`. -/
def p1Rbx (v : Word) : State := { p1 with gpr := { p1.gpr with rbx := v } }

/-- P2 with another `DS`. -/
def p2Ds (g : Segment) : State := { p2 with ds := g }

def e1 : EpcmEntry := tcsEntry 0x7F0000001000#64 0x80000000#64
def e5 : EpcmEntry := ssaEntry 0x7F0000005000#64 0x80000000#64
def e6 : EpcmEntry := ssaEntry 0x7F0000006000#64 0x80000000#64

/-! ### Witnesses, obligation by obligation -/

/-- The first and the last prefix of the list. -/
theorem witness_PrefixedFormsAreRejected : 0x66#8 ∈ prefixBytes ∧ 0x65#8 ∈ prefixBytes := by decide

/-- The bytes at `CS:RIP` of P1 are those of `ENCLU`. -/
theorem witness_StepRunsTheDecodedInstruction :
    ∀ k, k < (encode .enclu).length → ∃ pa, translateAddr p1.plat (fetchLinear p1 k) .read = .ok pa ∧
      Memory.get p1.mem pa.toNat = (encode .enclu).getD k 0#8 := by
  intro k hk
  have : k = 0 ∨ k = 1 ∨ k = 2 := by simp [encode] at hk; omega
  rcases this with rfl | rfl | rfl
  · exact ⟨0x401234#64, by decide +kernel, by decide +kernel⟩
  · exact ⟨0x401235#64, by decide +kernel, by decide +kernel⟩
  · exact ⟨0x401236#64, by decide +kernel, by decide +kernel⟩

/-- 95_test_vectors.md 2.1: `EAX = 2`, and `EAX = 0` under a set upper half. -/
theorem witness_OtherLeavesAreRefused :
    leaf { p1 with gpr := { p1.gpr with rax := 2#64 } } ≠ 3#32 ∧
      leaf { p1 with gpr := { p1.gpr with rax := 0x100000000#64 } } ≠ 3#32 := by decide +kernel

/-- 95_test_vectors.md 2.1: `RAX = FFFFFFFF00000003H`. -/
theorem witness_UpperHalfOfRaxIsNotConsulted :
    (0xFFFFFFFF00000003#64).setWidth 32 = p1.gpr.rax.setWidth 32 := by decide +kernel

/-- P1 with other premises. -/
def p1Prem (p : Premises) : State := { p1 with prem := p }

/-- For each clause, states that meet its hypotheses: each premise unmet alone, and several at once where the first
decides. -/
theorem witness_PremisesUnmetAreRefused :
    (∀ s ∈ [{ p1 with plat := { p1.plat with sgx1 := false } }, p1Prem { premisesMet with sgxEnabled := false },
        p1Prem { cpl := 0#2, mode := .realAddress, paging := false, sgxEnabled := false }],
      leaf s = 3#32 ∧ (s.plat.sgx1 = false ∨ s.prem.sgxEnabled = false)) ∧
    (∀ s ∈ [p1Prem { premisesMet with mode := .realAddress }, p1Prem { premisesMet with mode := .virtual8086 },
        p1Prem { premisesMet with mode := .systemManagement }, p1Prem { premisesMet with paging := false },
        p1Prem { premisesMet with paging := false, cpl := 0#2 }],
      leaf s = 3#32 ∧ s.plat.sgx1 = true ∧ s.prem.sgxEnabled = true ∧
        (s.prem.mode ≠ .protectedMode ∨ s.prem.paging = false)) ∧
    (∀ s ∈ [p1Prem { premisesMet with cpl := 0#2 }, p1Prem { premisesMet with cpl := 2#2 }],
      leaf s = 3#32 ∧ s.plat.sgx1 = true ∧ s.prem.sgxEnabled = true ∧ s.prem.mode = .protectedMode ∧
        s.prem.paging = true ∧ s.prem.cpl ≠ 3#2) := by
  refine ⟨fun s hs => ?_, fun s hs => ?_, fun s hs => ?_⟩ <;>
    simp only [List.mem_cons, List.not_mem_nil, or_false] at hs
  · rcases hs with rfl | rfl | rfl <;> decide +kernel
  · rcases hs with rfl | rfl | rfl | rfl | rfl <;> decide +kernel
  · rcases hs with rfl | rfl <;> decide +kernel

/-- A frame end that is not page aligned (`BASEADDR` 80H above a page): most of the GPR area lies on a page no check
covers (93_implementation_defined.md U5). -/
def p1Straddle : State := p1Secs { secs64 with baseaddr := 0x7F0000000080#64 }

/-- Both kinds of refusal occur. -/
theorem witness_RefusesOnlyOutsideTheSpec :
    (exec .enclu { p1 with prem := { p1.prem with cpl := 0#2 } } = .refused .privilegeNotInSpec) ∧
      exec .enclu p1Straddle = .refused .gprAreaUnchecked := by
  constructor
  · exact execEnclu_of_stop (s := { p1 with prem := { p1.prem with cpl := 0#2 } }) (st := .refuse .privilegeNotInSpec)
      (by decide +kernel)
  · exact execEnclu_of_stop (s := p1Straddle) (st := .refuse .gprAreaUnchecked) (by decide +kernel)

/-- In enclave mode; DS unusable; DS expand-down (95_test_vectors.md 2.3). -/
theorem witness_EnclaveModeAndBadDsRaiseGp :
    (Admitted { p1 with cr := { p1.cr with enclaveMode := true } }) ∧
      (Admitted (p2Ds { p2.ds with ar := { p2.ds.ar with unusable := true } }) ∧
        mode64 (p2Ds { p2.ds with ar := { p2.ds.ar with unusable := true } }) = false) ∧
      (Admitted (p2Ds { p2.ds with ar := { p2.ds.ar with typ := 7#4 } }) ∧
        mode64 (p2Ds { p2.ds with ar := { p2.ds.ar with typ := 7#4 } }) = false ∧
        DsExpandDown (p2Ds { p2.ds with ar := { p2.ds.ar with typ := 7#4 } })) :=
  ⟨admitted_of (by decide +kernel), ⟨admitted_of (by decide +kernel), by decide +kernel⟩,
    admitted_of (by decide +kernel), by decide +kernel, ⟨by decide +kernel, by decide +kernel, by decide +kernel⟩⟩

/-- Outside 64-bit mode, one change each of 95_test_vectors.md 2.3; and a state in 64-bit mode. -/
theorem witness_SegmentBasesRaiseGp :
    (∀ s ∈ [{ p2 with cs := { p2.cs with base := 0x1000#64 } }, { p2 with ds := { p2.ds with base := 0x1000#64 } },
        { p2 with es := { p2.es with base := 0x1000#64 } }, { p2 with ss := { p2.ss with base := 0x10#64 } },
        { p2 with ss := { p2.ss with ar := { p2.ss.ar with b := false } } }],
      Admitted s ∧ mode64 s = false ∧
        (s.cs.base ≠ 0#64 ∨ s.ds.base ≠ 0#64 ∨ (s.es.ar.unusable = false ∧ s.es.base ≠ 0#64) ∨
          (s.ss.ar.unusable = false ∧ s.ss.base ≠ 0#64) ∨ (s.ss.ar.unusable = false ∧ s.ss.ar.b = false))) ∧
      mode64 p1 = true := by
  refine ⟨fun s hs => ?_, by decide +kernel⟩
  simp only [List.mem_cons, List.not_mem_nil, or_false] at hs
  rcases hs with rfl | rfl | rfl | rfl | rfl <;>
    exact ⟨admitted_of (by decide +kernel), by decide +kernel, by decide +kernel⟩

/-- `RBX` 8 above a page and at FFFH (95_test_vectors.md 2.4). -/
theorem witness_MisalignedTcsRaisesGp :
    ∀ v ∈ [0x7F0000001008#64, 0xFFF#64], Admitted (p1Rbx v) ∧ ModeOk (p1Rbx v) ∧
      aligned4K (tcsLinear (p1Rbx v)) = false ∧ (p1Rbx v).gpr.rbx.setWidth 12 ≠ 0#12 := by
  intro v hv
  simp only [List.mem_cons, List.not_mem_nil, or_false] at hv
  rcases hv with rfl | rfl <;>
    exact ⟨admitted_of (by decide +kernel), mode_of (by decide +kernel), by decide +kernel, by decide +kernel⟩

/-- `RBX` on a page that is not mapped (0, the lowest), and on one mapped outside the EPC. -/
theorem witness_TcsOutsideEpcFaults :
    (Admitted (p1Rbx 0#64) ∧ ModeOk (p1Rbx 0#64) ∧ aligned4K (tcsLinear (p1Rbx 0#64)) = true ∧
      translateAddr (p1Rbx 0#64).plat (tcsLinear (p1Rbx 0#64)) .readwrite = .fault ⟨.pageFault, 6#32, some 0#64⟩) ∧
    (Admitted (p1Rbx 0x7F0000003000#64) ∧ ModeOk (p1Rbx 0x7F0000003000#64) ∧
      aligned4K (tcsLinear (p1Rbx 0x7F0000003000#64)) = true ∧
      translateAddr (p1Rbx 0x7F0000003000#64).plat (tcsLinear (p1Rbx 0x7F0000003000#64)) .readwrite = .ok 0x3000#64 ∧
      inEpc (p1Rbx 0x7F0000003000#64).plat 0x3000#64 = false) :=
  ⟨⟨admitted_of (by decide +kernel), mode_of (by decide +kernel), by decide +kernel, by decide +kernel⟩,
    admitted_of (by decide +kernel), mode_of (by decide +kernel), by decide +kernel, by decide +kernel,
    by decide +kernel⟩

/-- P1 with the lowest non-canonical AEP. -/
def p1Aep : State := { p1 with gpr := { p1.gpr with rcx := 0x800000000000#64 } }

/-- The lowest non-canonical AEP, and a state outside 64-bit mode. -/
theorem witness_NonCanonicalAepRaisesGp :
    Admitted p1Aep ∧ ModeOk p1Aep ∧ TcsResolves p1Aep ∧ mode64 p1Aep = true ∧
      canonical p1Aep.plat.laBits p1Aep.gpr.rcx = false ∧ mode64 p2 = false :=
  ⟨admitted_of (by decide +kernel), mode_of (by decide +kernel),
    ⟨by decide +kernel, ⟨0x80001000#64, by decide +kernel⟩, by decide +kernel⟩, by decide +kernel, by decide +kernel,
    by decide +kernel⟩

/-- P1 with one oracle input set. -/
def p1Oracle (lock busy : Bool) : State := { p1 with oracle := ⟨lock, busy, true⟩ }

theorem witness_OracleConflictsRaiseGp :
    (Admitted (p1Oracle true false) ∧ ModeOk (p1Oracle true false) ∧ TcsResolves (p1Oracle true false) ∧
      AepOk (p1Oracle true false)) ∧
    (Admitted (p1Oracle false true) ∧ ModeOk (p1Oracle false true) ∧ TcsPageOk (p1Oracle false true)) :=
  ⟨⟨admitted_of (by decide +kernel), mode_of (by decide +kernel),
      ⟨by decide +kernel, ⟨0x80001000#64, by decide +kernel⟩, by decide +kernel⟩, fun _ => by decide +kernel⟩,
    upToTcs_of (by decide +kernel)⟩

/-- One change each of 95_test_vectors.md 2.10, the TCS page. -/
theorem witness_BadTcsEntryRaisesPf :
    ∀ e ∈ [{ e1 with valid := false }, { e1 with blocked := true }, { e1 with pending := true },
        { e1 with modified := true }, { e1 with enclaveAddress := 0x7F0000002000#64 }, { e1 with pt := .ptReg }],
      Admitted (p1TcsEntry e) ∧ ModeOk (p1TcsEntry e) ∧ TcsResolves (p1TcsEntry e) ∧ AepOk (p1TcsEntry e) ∧
        (p1TcsEntry e).oracle.tcsLockConflict = false ∧
        ((epcmAt (p1TcsEntry e) (tcsLinear (p1TcsEntry e))).valid = false ∨
          (epcmAt (p1TcsEntry e) (tcsLinear (p1TcsEntry e))).blocked = true ∨
          (epcmAt (p1TcsEntry e) (tcsLinear (p1TcsEntry e))).pending = true ∨
          (epcmAt (p1TcsEntry e) (tcsLinear (p1TcsEntry e))).modified = true ∨
          (epcmAt (p1TcsEntry e) (tcsLinear (p1TcsEntry e))).enclaveAddress ≠ tcsLinear (p1TcsEntry e) ∨
          (epcmAt (p1TcsEntry e) (tcsLinear (p1TcsEntry e))).pt ≠ .ptTcs) := by
  intro e he
  simp only [List.mem_cons, List.not_mem_nil, or_false] at he
  rcases he with rfl | rfl | rfl | rfl | rfl | rfl <;>
    exact ⟨admitted_of (by decide +kernel), mode_of (by decide +kernel),
      ⟨by decide +kernel, ⟨0x80001000#64, by decide +kernel⟩, by decide +kernel⟩, fun _ => by decide +kernel,
      by decide +kernel, by decide +kernel⟩

/-- Unaligned `OSSA`, `OFSBASE` and `OGSBASE`; the lowest and the highest reserved bit of `FLAGS` (95_test_vectors.md 2.4, 2.6). -/
theorem witness_BadTcsFieldsRaiseGp :
    ∀ t ∈ [{ tcs64 with ossa := 0x3800#64 }, { tcs64 with ofsbase := 0x8001#64 }, { tcs64 with ogsbase := 0x9FFF#64 },
        { tcs64 with flags := 2#64 }, { tcs64 with flags := 0x8000000000000000#64 }],
      Admitted (p1Tcs t) ∧ ModeOk (p1Tcs t) ∧ TcsPageOk (p1Tcs t) ∧
        ((tcsOf (p1Tcs t)).ossa.setWidth 12 ≠ 0#12 ∨ (tcsOf (p1Tcs t)).ofsbase.setWidth 12 ≠ 0#12 ∨
          (tcsOf (p1Tcs t)).ogsbase.setWidth 12 ≠ 0#12 ∨
          (tcsOf (p1Tcs t)).flags &&& 0xFFFFFFFFFFFFFFFE#64 ≠ 0#64) := by
  intro t ht
  simp only [List.mem_cons, List.not_mem_nil, or_false] at ht
  rcases ht with rfl | rfl | rfl | rfl | rfl <;>
    exact ⟨admitted_of (by decide +kernel), mode_of (by decide +kernel), tcs_of (by decide +kernel), by decide +kernel⟩

/-- Not initialized; a mode that does not match; `OSFXSR = 0`; `XFRM = 7` with `OSXSAVE = 0` and with `XCR0 = 3`
(95_test_vectors.md 2.7). -/
theorem witness_BadConfigurationRaisesGp :
    ∀ s ∈ [p1Secs { secs64 with init := false }, p1Secs { secs64 with mode64bit := false },
        { p1 with cr4 := 0x40000#64 },
        { p1 with cr4 := 0x200#64, secs := [(0x80000000, { secs64 with xfrm := 7#64 })] },
        { p1 with xcr0 := 3#64, secs := [(0x80000000, { secs64 with xfrm := 7#64 })] }],
      Admitted s ∧ ModeOk s ∧ TcsPageOk s ∧
        ((secsOf s).init = false ∨ mode64 s ≠ (secsOf s).mode64bit ∨ osfxsr s = false ∨
          (osxsave s = false ∧ (secsOf s).xfrm ≠ 3#64) ∨
          (osxsave s = true ∧ (secsOf s).xfrm &&& s.xcr0 ≠ (secsOf s).xfrm)) := by
  intro s hs
  simp only [List.mem_cons, List.not_mem_nil, or_false] at hs
  rcases hs with rfl | rfl | rfl | rfl | rfl <;>
    exact ⟨admitted_of (by decide +kernel), mode_of (by decide +kernel), tcs_of (by decide +kernel), by decide +kernel⟩

/-- Program P3: `CSSA = 0`. -/
def p3 : State := p1Tcs { tcs64 with cssa := 0#32 }

theorem witness_NoActiveFrameRaisesGp : Admitted p3 ∧ ModeOk p3 ∧ TcsPageOk p3 ∧ (tcsOf p3).cssa = 0#32 :=
  ⟨admitted_of (by decide +kernel), mode_of (by decide +kernel), tcs_of (by decide +kernel), by decide +kernel⟩

/-- P1 with the page of the XSAVE area mapped outside the EPC. -/
def p1XsaveOutside : State := p1Xlat ((0x7F0000005, mapTo 3#52) :: p1.plat.xlat.pages)

/-- P1 with an XSAVE area of 4097 bytes, the second page of which is not valid. -/
def p1TwoPages : State :=
  { p1GprEntry { e6 with valid := false } with plat := { p1.plat with xsaveSizes := [(3#64, 4097#64)] } }

/-- The page of the XSAVE area not mapped, mapped outside the EPC, the second of two pages not valid, and one change each
of the EPCM entry. -/
theorem witness_XsavePageFaults :
    (Admitted (p1Xlat (p1.plat.xlat.pages.take 2)) ∧ ModeOk (p1Xlat (p1.plat.xlat.pages.take 2)) ∧
      TcsPageOk (p1Xlat (p1.plat.xlat.pages.take 2)) ∧ ConfigOk (p1Xlat (p1.plat.xlat.pages.take 2))) ∧
    ssaPages (p1Xlat (p1.plat.xlat.pages.take 2)) = [] ++ 0x7F0000005000#64 :: [] ∧
    translateAddr (p1Xlat (p1.plat.xlat.pages.take 2)).plat 0x7F0000005000#64 .readwrite =
      .fault ⟨.pageFault, 6#32, some 0x7F0000005000#64⟩ ∧
    ((Admitted p1XsaveOutside ∧ ModeOk p1XsaveOutside ∧ TcsPageOk p1XsaveOutside ∧ ConfigOk p1XsaveOutside) ∧
      translateAddr p1XsaveOutside.plat 0x7F0000005000#64 .readwrite = .ok 0x3000#64 ∧
      inEpc p1XsaveOutside.plat 0x3000#64 = false) ∧
    ((Admitted p1TwoPages ∧ ModeOk p1TwoPages ∧ TcsPageOk p1TwoPages ∧ ConfigOk p1TwoPages) ∧
      ssaPages p1TwoPages = [0x7F0000005000#64] ++ 0x7F0000006000#64 :: [] ∧
      (∀ q ∈ [0x7F0000005000#64], SsaPageOk p1TwoPages (dsLinear p1TwoPages q) (dsLinear p1TwoPages q)) ∧
      (epcmAt p1TwoPages 0x7F0000006000#64).valid = false) ∧
    ∀ e ∈ [{ e5 with valid := false }, { e5 with blocked := true }, { e5 with pending := true },
        { e5 with modified := true }, { e5 with enclaveAddress := 0x7F0000006000#64 }, { e5 with pt := .ptTcs },
        { e5 with enclaveSecs := 0x80002000#64 }, { e5 with r := false }, { e5 with w := false }],
      (Admitted (p1XsaveEntry e) ∧ ModeOk (p1XsaveEntry e) ∧ TcsPageOk (p1XsaveEntry e) ∧ ConfigOk (p1XsaveEntry e)) ∧
        ssaPages (p1XsaveEntry e) = [] ++ 0x7F0000005000#64 :: [] ∧
        firstStop (ssaPageCauses (p1XsaveEntry e) 188 .xsave 0x7F0000005000#64 0x7F0000005000#64) ≠ none := by
  refine ⟨upToConfig_of (by decide +kernel), by decide +kernel, by decide +kernel,
    ⟨upToConfig_of (by decide +kernel), by decide +kernel, by decide +kernel⟩,
    ⟨upToConfig_of (by decide +kernel), by decide +kernel, fun q hq => ?_, by decide +kernel⟩, fun e he => ?_⟩
  · rw [List.mem_singleton] at hq
    subst hq
    exact (ssaPageCauses_none _ 188 .xsave _ _).1 (by decide +kernel)
  simp only [List.mem_cons, List.not_mem_nil, or_false] at he
  rcases he with rfl | rfl | rfl | rfl | rfl | rfl | rfl | rfl | rfl <;>
    exact ⟨upToConfig_of (by decide +kernel), by decide +kernel, by decide +kernel⟩

/-- P1 without the page of the GPR area, and with that page not writable. -/
theorem witness_GprPageFaults :
    ((Admitted (p1Xlat (p1.plat.xlat.pages.take 4)) ∧ ModeOk (p1Xlat (p1.plat.xlat.pages.take 4)) ∧
        TcsPageOk (p1Xlat (p1.plat.xlat.pages.take 4)) ∧ ConfigOk (p1Xlat (p1.plat.xlat.pages.take 4))) ∧
      XsavePagesOk (p1Xlat (p1.plat.xlat.pages.take 4)) ∧
      translateAddr (p1Xlat (p1.plat.xlat.pages.take 4)).plat 0x7F0000006F48#64 .readwrite =
        .fault ⟨.pageFault, 6#32, some 0x7F0000006F48#64⟩ ∧
      dsLinear (p1Xlat (p1.plat.xlat.pages.take 4)) (tmpGpr (p1Xlat (p1.plat.xlat.pages.take 4))) =
        0x7F0000006F48#64) ∧
    ((Admitted (p1GprEntry { e6 with w := false }) ∧ ModeOk (p1GprEntry { e6 with w := false }) ∧
        TcsPageOk (p1GprEntry { e6 with w := false }) ∧ ConfigOk (p1GprEntry { e6 with w := false })) ∧
      XsavePagesOk (p1GprEntry { e6 with w := false }) ∧
      translateAddr (p1GprEntry { e6 with w := false }).plat 0x7F0000006F48#64 .readwrite = .ok 0x80006F48#64 ∧
      (epcmAt (p1GprEntry { e6 with w := false }) 0x7F0000006F48#64).w = false) :=
  ⟨⟨upToConfig_of (by decide +kernel), xsave_of (by decide +kernel), by decide +kernel, by decide +kernel⟩,
    upToConfig_of (by decide +kernel), xsave_of (by decide +kernel), by decide +kernel, by decide +kernel⟩

/-- Program P7, the lowest non-canonical saved `RIP`; and a saved `RIP` one above the CS limit. -/
theorem witness_BadResumeAddressRaisesGp :
    (FrameOk (p1Mem 3 (gpr64 0x800000000000 0 0)) ∧
      gprFieldChecked (p1Mem 3 (gpr64 0x800000000000 0 0)) (p1Mem 3 (gpr64 0x800000000000 0 0)).plat.gprLayout.rip = true ∧
      mode64 (p1Mem 3 (gpr64 0x800000000000 0 0)) = true ∧
      canonical 48 (gprField (p1Mem 3 (gpr64 0x800000000000 0 0)) 136) = false) ∧
    (FrameOk { p2 with cs := { p2.cs with limit := 0x1001003F#32 } } ∧
      gprFieldChecked { p2 with cs := { p2.cs with limit := 0x1001003F#32 } } p2.plat.gprLayout.rip = true ∧
      mode64 { p2 with cs := { p2.cs with limit := 0x1001003F#32 } } = false ∧
      (low32 (gprField { p2 with cs := { p2.cs with limit := 0x1001003F#32 } } 136)).toNat > (0x1001003F#32).toNat) :=
  ⟨⟨frame_of (by decide +kernel), by decide +kernel, by decide +kernel, by decide +kernel⟩,
    frame_of (by decide +kernel), by decide +kernel, by decide +kernel, by decide +kernel⟩

/-- P2 with another DS limit and another TCS. -/
def p2Limits (limit : BitVec 32) (t : Tcs) : State := { p2Ds { p2.ds with limit := limit } with tcs := [(0x80011, t)] }

/-- The last byte of the GPR area one above the DS limit; FS and GS one above it; an FS that wraps under a DS one byte
short of 4 GBytes (95_test_vectors.md 2.11, 2.12). -/
theorem witness_OutsideDsRaisesGp :
    (mode64 (p2Limits 0x10004FFE#32 tcs32) = false ∧ Admitted (p2Limits 0x10004FFE#32 tcs32) ∧
      ModeOk (p2Limits 0x10004FFE#32 tcs32) ∧ TcsPageOk (p2Limits 0x10004FFE#32 tcs32) ∧
      ConfigOk (p2Limits 0x10004FFE#32 tcs32) ∧ XsavePagesOk (p2Limits 0x10004FFE#32 tcs32) ∧
      GprPageOk (p2Limits 0x10004FFE#32 tcs32) ∧ ¬ GprInDs (p2Limits 0x10004FFE#32 tcs32)) ∧
    (FrameOk (p2Limits 0x10005FFE#32 tcs32) ∧ CheckFieldsReadable (p2Limits 0x10005FFE#32 tcs32) ∧
      TargetOk (p2Limits 0x10005FFE#32 tcs32) ∧ outsideDs (p2Limits 0x10005FFE#32 tcs32) 0x10005000#64 0x10005FFF#64 = true) ∧
    (FrameOk (p2Limits 0x10007FFE#32 tcs32) ∧ outsideDs (p2Limits 0x10007FFE#32 tcs32) 0x10005000#64 0x10005FFF#64 = false ∧
      outsideDs (p2Limits 0x10007FFE#32 tcs32) 0x10006000#64 0x10007FFF#64 = true) ∧
    (outsideDs (p2Limits 0xFFFFFFFE#32 tcs32) 0xFFFFF000#64 0xFFF#64 = true ∧
      outsideDs (p2Limits 0xFFFFFFFF#32 tcs32) 0xFFFFF000#64 0xFFF#64 = false) := by
  refine ⟨⟨by decide +kernel, ?_⟩, ⟨frame_of (by decide +kernel), ⟨by decide +kernel, fun h => ?_, fun h => ?_⟩,
    ⟨fun h => ?_, fun _ => by decide +kernel⟩, by decide +kernel⟩,
    ⟨frame_of (by decide +kernel), by decide +kernel, by decide +kernel⟩, by decide +kernel, by decide +kernel⟩
  · obtain ⟨h0, h1, h2, h3⟩ := upToConfig_of (s := p2Limits 0x10004FFE#32 tcs32) (by decide +kernel)
    refine ⟨h0, h1, h2, h3, xsave_of (by decide +kernel), (ssaPageCauses_none _ 196 .gpr _ _).1 (by decide +kernel),
      fun h => ?_⟩
    exact absurd (h (by decide +kernel)) (by decide +kernel)
  all_goals exact absurd h (by decide +kernel)

/-- A saved FS base and a saved GS base that are the lowest non-canonical address. -/
theorem witness_NonCanonicalFsOrGsRaisesGp :
    ∀ g ∈ [gpr64 0x7F0000010040 0x800000000000 0, gpr64 0x7F0000010040 0 0x800000000000],
      mode64 (p1Mem 3 g) = true ∧ FrameOk (p1Mem 3 g) ∧ CheckFieldsReadable (p1Mem 3 g) ∧ TargetOk (p1Mem 3 g) ∧
        (canonical 48 (gprField (p1Mem 3 g) 168) = false ∨ canonical 48 (gprField (p1Mem 3 g) 176) = false) := by
  intro g hg
  simp only [List.mem_cons, List.not_mem_nil, or_false] at hg
  rcases hg with rfl | rfl <;>
    exact ⟨by decide +kernel, frame_of (by decide +kernel),
      ⟨by decide +kernel, fun _ => by decide +kernel, fun _ => by decide +kernel⟩,
      ⟨fun _ => by decide +kernel, fun h => absurd h (by decide +kernel)⟩, by decide +kernel⟩

/-- `STATE = ACTIVE`. -/
def p1Active : State := p1Tcs { tcs64 with state := .active }

theorem witness_ActiveTcsRaisesGp :
    FrameOk p1Active ∧ CheckFieldsReadable p1Active ∧ TargetOk p1Active ∧ SegmentsOk p1Active ∧
      (tcsOf p1Active).state = .active := by
  obtain ⟨h0, h1, h2⟩ := target_of (s := p1Active) (by decide +kernel)
  exact ⟨frame_of (by decide +kernel), h0, h1, h2, by decide +kernel⟩

/-- The states of a bad XSAVE header (95_test_vectors.md 2.14): `BV = 7`; byte 520; byte 535; and program P4. -/
theorem badHeader_checksPass :
    ∀ h ∈ [7, 3 + 1 * 2 ^ 64, 3 + 0x80 * 2 ^ 184], ChecksPass (p1Mem h goodGpr64) ∧
      xrstorFails (p1Mem h goodGpr64) = true ∧ Canonical (p1Mem h goodGpr64) := by
  have all : ∀ s : State, FrameOk s → CheckFieldsReadable s ∧ TargetOk s ∧ SegmentsOk s →
      (tcsOf s).state = .inactive → ChecksPass s := fun s hf ht hi => ⟨hf, ht.1, ht.2.1, ht.2.2, hi⟩
  intro h hh
  simp only [List.mem_cons, List.not_mem_nil, or_false] at hh
  rcases hh with rfl | rfl | rfl <;>
    exact ⟨all _ (frame_of (by decide +kernel)) (target_of (by decide +kernel)) (by decide +kernel), by decide +kernel,
      ⟨by decide +kernel, p1_canonical.tcs, p1_canonical.secs, p1_canonical.epcm⟩⟩

/-- Program P4, step 1. -/
theorem witness_XrstorFailureUndoesTheClaim :
    Canonical (p1Mem 7 goodGpr64) ∧ ChecksPass (p1Mem 7 goodGpr64) ∧ xrstorFails (p1Mem 7 goodGpr64) = true :=
  have h := badHeader_checksPass 7 (by simp)
  ⟨h.2.2, h.1, h.2.1⟩

/-- Byte 520, byte 535, and bit 2 of the bit vector with `XFRM = 3`. -/
theorem witness_BadXsaveHeaderFails :
    xsaveByte (p1Mem (3 + 1 * 2 ^ 64) goodGpr64) 520 ≠ 0#8 ∧ xsaveByte (p1Mem (3 + 0x80 * 2 ^ 184) goodGpr64) 535 ≠ 0#8 ∧
      (xsaveByte (p1Mem 7 goodGpr64) 512).getLsbD 2 = true ∧ (secsOf (p1Mem 7 goodGpr64)).xfrm.getLsbD 2 = false := by
  decide +kernel

/-- P3 faults with canonical tables; a `#GP`. -/
theorem witness_FaultsLeaveTheMachineAsItWas :
    Canonical p3 ∧ exec .enclu p3 = .fault (.generalProtection 0#32 (tick p3)) :=
  ⟨⟨by decide +kernel, by decide +kernel, by decide +kernel, by decide +kernel⟩,
    execEnclu_of_stop (s := p3) (st := .raised .gp) (by decide +kernel)⟩

theorem witness_EveryGpHasErrorCodeZero : exec .enclu p3 = .fault (.generalProtection 0#32 (tick p3)) :=
  witness_FaultsLeaveTheMachineAsItWas.2

/-- A `#PF` at the TCS, at the page of the XSAVE area and at `TMP_GPR`. -/
theorem witness_PageFaultAddresses :
    (∃ c t, exec .enclu (p1TcsEntry { e1 with valid := false }) = .fault (.pageFault 0x7F0000001000#64 c t)) ∧
    (∃ c t, exec .enclu (p1XsaveEntry { e5 with valid := false }) = .fault (.pageFault 0x7F0000005000#64 c t)) ∧
    (∃ c t, exec .enclu (p1GprEntry { e6 with valid := false }) = .fault (.pageFault 0x7F0000006F48#64 c t)) :=
  ⟨⟨_, _, execEnclu_of_stop (s := p1TcsEntry { e1 with valid := false })
      (st := .raised (.pf 0x7F0000001000#64 ⟨.tcs, .notValid⟩)) (by decide +kernel)⟩,
    ⟨_, _, execEnclu_of_stop (s := p1XsaveEntry { e5 with valid := false })
      (st := .raised (.pf 0x7F0000005000#64 ⟨.xsave, .notValid⟩)) (by decide +kernel)⟩,
    ⟨_, _, execEnclu_of_stop (s := p1GprEntry { e6 with valid := false })
      (st := .raised (.pf 0x7F0000006F48#64 ⟨.gpr, .notValid⟩)) (by decide +kernel)⟩⟩

/-- Of the statements about every resumable state: both entries, both modes, both readings of `CR4.OSXSAVE` and of
`IOPL`, a pending single step and none, both readings of `SAVE_TF_READING`, a suppressing and a non-suppressing entry. -/
theorem witness_Resumable :
    (Resumable p1 ∧ mode64 p1 = true ∧ optIn p1 = false ∧ osxsave p1 = true ∧ iopl p1.rflags ≠ 3#2 ∧
      flag p1.rflags .tf = true ∧ p1.plat.saveTf = .operationOrder ∧ p1.oracle.perfmonSuppressedAny = true) ∧
    (Resumable p2 ∧ mode64 p2 = false ∧ optIn p2 = true ∧ osxsave p2 = false ∧ iopl p2.rflags = 3#2 ∧
      flag p2.rflags .tf = true ∧ p2.oracle.perfmonSuppressedAny = false) ∧
    (Resumable { p1 with plat := { p1.plat with saveTf := .prose } }) ∧
    (Resumable { p2 with rflags := 0x3202#64 } ∧ flag (0x3202#64) .tf = false) :=
  ⟨⟨p1_resumable, by decide +kernel, by decide +kernel, by decide +kernel, by decide +kernel, by decide +kernel,
      by decide +kernel, by decide +kernel⟩,
    ⟨p2_resumable, by decide +kernel, by decide +kernel, by decide +kernel, by decide +kernel, by decide +kernel,
      by decide +kernel⟩,
    resumable_of (by decide +kernel), resumable_of (by decide +kernel), by decide +kernel⟩

/-- A register with an offset and a register without one. -/
theorem witness_RestoresTheGeneralRegisters :
    readReg p1.plat.gprLayout.reg .r15 = some 120 ∧
      Resumable { p1 with plat := { p1.plat with gprLayout := { p1.plat.gprLayout with
        reg := { p1.plat.gprLayout.reg with rsp := none } } } } :=
  ⟨rfl, resumable_of (by decide +kernel)⟩

theorem witness_StoresTheAepAndPopsTheFrame : Canonical p1 ∧ Resumable p1 := ⟨p1_canonical, p1_resumable⟩

theorem witness_ClaimsTheTcsAndKeepsTheRest : Canonical p1 ∧ Resumable p1 := ⟨p1_canonical, p1_resumable⟩

/-- An address outside ELRANGE, one below its base and its first one above; bytes around the base of an enclave of size
0, and no bytes inside one (10_state.md R39). -/
theorem witness_OutsideBreakpointsAreSuppressed :
    overlapsElrange ⟨0x7F0000000000#64, 0x100000#64⟩ 0x7EFFFFFFFFFF 1 = false ∧
      overlapsElrange ⟨0x7F0000000000#64, 0x100000#64⟩ 0x7F0000100000 1 = false ∧
      overlapsElrange ⟨0x7F0000000000#64, 0x100000#64⟩ 0x7F00000FFFFF 1 = true ∧
      overlapsElrange ⟨0x7F0000000000#64, 0#64⟩ 0x7EFFFFFFFFFF 4 = false ∧
      overlapsElrange ⟨0x7F0000000000#64, 0x100000#64⟩ 0x7F0000000008 0 = false := by decide +kernel

/-- Opt-out, with a thread that counts in AnyThread mode and one that does not. -/
theorem witness_OptOutSuppressesPerformanceMonitoring :
    Resumable p1 ∧ (tcsOf p1).flags.getLsbD 0 = false ∧
      p1.siblings[0]? = some ⟨true, false, 5#64⟩ ∧ p1.siblings[1]? = some ⟨false, false, 5#64⟩ :=
  ⟨p1_resumable, by decide +kernel, by decide +kernel, by decide +kernel⟩

theorem witness_FrameOfASuccessfulEntry : exec .enclu p1 = .next (commit p1) := exec_enclu_of_resumable p1_resumable

theorem witness_SsaFrameAddress : (tcsOf p1).cssa ≠ 0#32 ∧ mode64 p1 = true ∧ (tcsOf p2).cssa ≠ 0#32 ∧ mode64 p2 = false := by
  decide +kernel

/-- An XSAVE area that does not wrap. -/
theorem witness_SsaPagesCoverTheXsaveArea :
    (tmpSsa p1).toNat + (tmpXsize p1).toNat ≤ 2 ^ 64 ∧ (tmpSsa p2).toNat + (tmpXsize p2).toNat ≤ 2 ^ 32 := by
  have h1 : tmpSsa p1 = 0x7F0000005000#64 := by decide +kernel
  have h2 : tmpXsize p1 = 576#64 := by decide +kernel
  have h3 : tmpSsa p2 = 0x10004000#64 := by decide +kernel
  have h4 : tmpXsize p2 = 576#64 := by decide +kernel
  rw [h1, h2, h3, h4]
  simp

/-- The last field of the area, `GSBASE`, ends it. -/
theorem witness_AlignedGprAreaIsChecked :
    ModeOk p1 ∧ aligned4K (tmpSsa p1 + frameBytes p1) = true ∧ p1.plat.gprSize ≤ 4096 ∧ 176 + 8 ≤ p1.plat.gprSize :=
  ⟨mode_of (by decide +kernel), by decide +kernel, by decide +kernel, by decide +kernel⟩

/-- The step of P1. -/
theorem p1_step : step p1 = .next (commit p1) := by
  have h : fetchInstr p1 = .ok .enclu := by decide +kernel
  rw [step, h]
  exact exec_enclu_of_resumable p1_resumable

theorem witness_EveryStepKeepsTheInvariant : Inv p1 ∧ step p1 = .next (commit p1) :=
  ⟨⟨p1_canonical, by decide +kernel, fun h => absurd h (by decide +kernel)⟩, p1_step⟩

theorem witness_NoStepFollowsAnEntry : step p1 = .next (commit p1) := p1_step

/-- Program P5: processor B, in the state A began in, on the memory A left. -/
theorem witness_OneEntryPerTcs :
    Canonical p1 ∧ exec .enclu p1 = .next (commit p1) ∧
      ({ p1 with tcs := (commit p1).tcs } : State).tcs = (commit p1).tcs ∧
      tcsKey { p1 with tcs := (commit p1).tcs } = tcsKey p1 :=
  ⟨p1_canonical, exec_enclu_of_resumable p1_resumable, rfl, rfl⟩

/-- P1 and P1 with another saved `RIP`; P2, outside 64-bit mode. -/
theorem witness_SavedImageSetsOnlyWhatIsListed :
    (∃ t, exec .enclu p1 = .next t) ∧
      (∃ t', exec .enclu { p1 with mem := mem64 3 (gpr64 0x7F0000020000 0 0) } = .next t') ∧
      mode64 p1 = true ∧ (∃ t, exec .enclu p2 = .next t) ∧ mode64 p2 = false :=
  ⟨⟨_, exec_enclu_of_resumable p1_resumable⟩,
    ⟨_, exec_enclu_of_resumable (resumable_of (by decide +kernel))⟩, by decide +kernel,
    ⟨_, exec_enclu_of_resumable p2_resumable⟩, by decide +kernel⟩

end Sys2Proof.Tests
end

section
/-! The invariant of the state (10_state.md): it holds at reset, and the commit of a successful `ENCLU[ERESUME]`, which is
what every step that answers a next state makes, keeps it. -/

namespace Sys2Proof.Machine

/-! ### What the commit makes of each part of the invariant -/

/-- The commit writes one table, the TCSs, and by `Sparse.set`. -/
theorem commit_keeps_canonical {s : State} (h : Canonical s) : Canonical (commit s) where
  mem := h.mem
  tcs := sparse_set_wf _ _ _ _ h.tcs
  secs := h.secs
  epcm := h.epcm

/-- No fixed bit of `RFLAGS` (10_state.md R26) is among those ERESUME writes (41_enclu_eresume_commit.md R244 to R248). -/
theorem getLsbD_mergeRflags_of_fixed (old saved : Word) (optIn : Bool) {j : Nat}
    (hj : j = 1 ∨ j = 3 ∨ j = 5 ∨ j = 15 ∨ 22 ≤ j) :
    (mergeRflags old saved optIn).getLsbD j = old.getLsbD j := by
  have hrestored : [0, 2, 4, 6, 7, 10, 11, 14, 18, 21, 16].contains j = false := by
    simp only [List.contains_eq_mem, List.mem_cons, List.not_mem_nil, or_false, decide_eq_false_iff_not]
    omega
  rw [getLsbD_mergeRflags, if_neg (by omega), if_neg (by omega), if_neg (by omega), hrestored]
  rfl

theorem mergeRflags_keeps_rflagsFixed {old : Word} (saved : Word) (optIn : Bool) (h : rflagsFixed old = true) :
    rflagsFixed (mergeRflags old saved optIn) = true := by
  obtain ⟨h1, h3, h5, h15, hhigh⟩ := (rflagsFixed_iff old).1 h
  have keep {j : Nat} := getLsbD_mergeRflags_of_fixed old saved optIn (j := j)
  exact (rflagsFixed_iff _).2 ⟨(keep (by omega)).trans h1, (keep (by omega)).trans h3, (keep (by omega)).trans h5,
    (keep (by omega)).trans h15, fun i hi => (keep (by omega)).trans (hhigh i hi)⟩

/-- `VM <- 0` (41_enclu_eresume_commit.md R246). -/
theorem flag_vm_mergeRflags (old saved : Word) (optIn : Bool) :
    flag (mergeRflags old saved optIn) .vm = false :=
  getLsbD_mergeRflags old saved optIn Flag.vm.pos

/-- `TF <- 0` on opt-out entry (41_enclu_eresume_commit.md R257). -/
theorem flag_tf_mergeRflags_optOut (old saved : Word) : flag (mergeRflags old saved false) .tf = false :=
  getLsbD_mergeRflags old saved false Flag.tf.pos

/-- `CR_TCS_PA` names the TCS that the commit writes. -/
theorem pageNo_newCr_tcsPa (s : State) : pageNo (newCr s).tcsPa = tcsKey s := rfl

/-- The TCS that `CR_TCS_PA` names after the commit is the one the commit made. -/
theorem commit_get_tcsPa {s : State} (h : Canonical s) :
    Sparse.get Tcs.blank (commit s).tcs (pageNo (commit s).cr.tcsPa) = newTcs s := by
  rw [commit_tcs, commit_cr, pageNo_newCr_tcsPa, sparse_get_set _ _ _ _ _ h.tcs, if_pos rfl]

/-- The loop over the XSAVE area checked every page that `CR_XSAVE_PAGE_n` receives (40_enclu_eresume_checks.md R189,
R194). -/
theorem inEpc_of_mem_xsavePagePas {s : State} (h : XsavePagesOk s) {pa : Word} (hpa : pa ∈ xsavePagePas s) :
    inEpc s.plat pa = true := by
  obtain ⟨p, hp, rfl⟩ := List.mem_map.1 hpa
  exact (h p hp).inEpc

/-- A successful ERESUME from a state with canonical tables leaves what enclave mode means. -/
theorem commit_inEnclave {s : State} (hc : Canonical s) (hr : Resumable s) : InEnclave (commit s) where
  tcsActive := by rw [commit_get_tcsPa hc]; rfl
  tcsInEpc := hr.checks.frame.tcsPage.resolves.inEpc
  xsavePagesInEpc _ hpa := inEpc_of_mem_xsavePagePas hr.checks.frame.xsavePages hpa
  vmClear := flag_vm_mergeRflags _ _ _
  tfClear hopt := by
    have hout : optIn s = false := hopt
    rw [commit_rflags, newRflags, hout]
    exact flag_tf_mergeRflags_optOut _ _
  monitorClear := rfl
  outsideSuppressed := rfl

theorem commit_keeps_inv {s : State} (hi : Inv s) (hr : Resumable s) : Inv (commit s) where
  canonical := commit_keeps_canonical hi.canonical
  rflags := mergeRflags_keeps_rflagsFixed _ _ hi.rflags
  enclave _ := commit_inEnclave hi.canonical hr

/-! ### The statements -/

/-- Settles O54: a next state is the commit of a resumable state, and the commit keeps each part of the invariant. -/
theorem everyStepKeepsTheInvariant : Obligations.EveryStepKeepsTheInvariant := by
  intro s t hi hstep
  obtain ⟨hr, rfl⟩ := step_eq_next hstep
  exact commit_keeps_inv hi hr

/-- Reset leaves every table empty. -/
theorem reset_canonical : Canonical State.reset := ⟨rfl, rfl, rfl, rfl⟩

/-- Settles O55: the tables are empty, `RFLAGS` is 2, and the processor is not in enclave mode. -/
theorem resetHasTheInvariant : Obligations.ResetHasTheInvariant where
  canonical := reset_canonical
  rflags := by decide
  enclave h := absurd h Bool.false_ne_true

end Sys2Proof.Machine
end

section
/-! Memory (20_memory.md): the GPR area below an aligned frame end lies on one page (R102), and a TCS that an execution
claimed admits no other (R112). -/

namespace Sys2Proof.Machine

/-! ### The page below an aligned address -/

theorem aligned4K_iff (v : Word) : aligned4K v = true ↔ v.toNat % 4096 = 0 := by
  rw [aligned4K, beq_iff_eq, ← toNat_setWidth_12, ← BitVec.toNat_inj]
  rfl

/-- An address formed in two steps is reduced once: 2^32 divides 2^64 (20_memory.md R92). -/
theorem ea_ea_add (m64 : Bool) (v w : Word) : ea m64 (ea m64 v + w) = ea m64 (v + w) := by
  apply BitVec.eq_of_toNat_eq
  simp only [toNat_ea, BitVec.toNat_add]
  cases m64
  · simp only [Bool.false_eq_true, if_false]
    omega
  · simp only [if_true]
    omega

/-- The 4096 bytes that end at an aligned address are one page, also where the addresses wrap: a page divides the address
space of either mode. -/
theorem pageOf_ea_sub_of_aligned (m64 : Bool) {v : Word} (hv : aligned4K v = true) {n : Nat} (hpos : 0 < n)
    (hn : n ≤ 4096) : pageOf (ea m64 (v - BitVec.ofNat 64 n)) = ea m64 (v - 4096#64) := by
  have hmod := (aligned4K_iff v).1 hv
  apply BitVec.eq_of_toNat_eq
  simp only [toNat_pageOf, toNat_ea, BitVec.toNat_sub, BitVec.toNat_ofNat]
  cases m64
  · simp only [Bool.false_eq_true, if_false]
    omega
  · simp only [if_true]
    omega

/-! ### The GPR area -/

/-- Byte `k` of the GPR area, at linear address `TMP_GPR + k`, counted back from the end of the frame
(40_enclu_eresume_checks.md R195). -/
theorem gprByteLinear_eq {s : State} (h : ModeOk s) {off i : Nat} (hk : off + i ≤ s.plat.gprSize) :
    gprByteLinear s off i =
      ea (mode64 s) (tmpSsa s + frameBytes s - BitVec.ofNat 64 (s.plat.gprSize - (off + i))) := by
  have hback : BitVec.ofNat 64 s.plat.gprSize =
      BitVec.ofNat 64 (s.plat.gprSize - (off + i)) + BitVec.ofNat 64 (off + i) := by
    rw [← BitVec.ofNat_add, Nat.sub_add_cancel hk]
  rw [gprByteLinear, dsLinear_ea h, tmpGpr, ea_ea_add, hback]
  congr 1
  ring

theorem dsLinear_tmpGpr {s : State} (h : ModeOk s) : dsLinear s (tmpGpr s) = tmpGpr s := dsLinear_ea h _

/-- A field is on a checked page when each of its bytes is on the page of `TMP_GPR`, which R196 to R201 check. -/
theorem gprFieldChecked_of_pageOf {s : State} {off : Nat}
    (h : ∀ i, i < 8 → pageOf (gprByteLinear s off i) = pageOf (dsLinear s (tmpGpr s))) :
    gprFieldChecked s off = true := by
  rw [gprFieldChecked, List.all_eq_true]
  intro i hi
  rw [decide_eq_true_iff, h i (List.mem_range.1 hi)]
  exact List.mem_cons_self

/-- Settles O52: every byte of the area, the first included, is on the one page that ends where the frame ends. -/
theorem alignedGprAreaIsChecked : Obligations.AlignedGprAreaIsChecked := by
  intro s off hmode haligned hsize hoff
  apply gprFieldChecked_of_pageOf
  intro i hi
  rw [gprByteLinear_eq hmode (by omega), dsLinear_tmpGpr hmode, tmpGpr,
    pageOf_ea_sub_of_aligned _ haligned (by omega) (by omega), pageOf_ea_sub_of_aligned _ haligned (by omega) hsize]

/-! ### The claim of a TCS -/

/-- An execution that enters found its TCS `INACTIVE` (40_enclu_eresume_checks.md R209). -/
theorem tcs_inactive_of_exec_enclu_eq_next {s t : State} (h : exec .enclu s = .next t) :
    (tcsOf s).state = .inactive :=
  (exec_enclu_eq_next.1 h).1.checks.inactive

/-- An execution that enters leaves its TCS `ACTIVE` (40_enclu_eresume_checks.md R209). -/
theorem tcs_active_after_exec_enclu {s t : State} (hc : Canonical s) (h : exec .enclu s = .next t) :
    (Sparse.get Tcs.blank t.tcs (tcsKey s)).state = .active := by
  obtain ⟨hr, rfl⟩ := exec_enclu_eq_next.1 h
  exact (commit_inEnclave hc hr).tcsActive

/-- Settles O57: the first execution leaves `ACTIVE` the TCS that the second must find `INACTIVE`. -/
theorem oneEntryPerTcs : Obligations.OneEntryPerTcs := by
  intro s t u v hc hs htcs hkey hu
  have hactive : (tcsOf u).state = .active := by
    rw [tcsOf, htcs, hkey]
    exact tcs_active_after_exec_enclu hc hs
  rw [tcs_inactive_of_exec_enclu_eq_next hu] at hactive
  exact absurd hactive (by decide)

end Sys2Proof.Machine
end

section
/-! The encoding of `ENCLU` (30_encoding.md): its bytes, the step that fetches them, the leaf that `EAX` selects and the
executions to which the spec gives no meaning. -/

namespace Sys2Proof

/-! ### The decoder -/

/-- A prefixed form is rejected as one, however short the list (30_encoding.md R138). -/
theorem decode_cons_of_mem_prefixBytes {b : Byte} (h : b ∈ prefixBytes) (rest : List Byte) :
    decode (b :: rest) = .error (.prefixed b) := by
  match rest with
  | [] => exact if_pos h
  | [_] => exact if_pos h
  | _ :: _ :: _ => exact if_pos h

/-- Bytes that decode begin with three that a row of the opcode table matches; the remainder follows them. -/
theorem decode_eq_ok {bs rest : List Byte} {i : Instr} (h : decode bs = .ok (i, rest)) :
    ∃ b0 b1 b2 r, bs = b0 :: b1 :: b2 :: rest ∧ matchRow b0 b1 b2 = some r ∧ r.instr = i := by
  match bs with
  | [] => simp [decode] at h
  | [b0] => by_cases hb : b0 ∈ prefixBytes <;> simp [decode, hb] at h
  | [b0, b1] => by_cases hb : b0 ∈ prefixBytes <;> simp [decode, hb] at h
  | b0 :: b1 :: b2 :: tail =>
    have hb : b0 ∉ prefixBytes := fun hb => by simp [decode_cons_of_mem_prefixBytes hb] at h
    cases hm : matchRow b0 b1 b2 with
    | none => simp [decode, hb, hm] at h
    | some r =>
      obtain ⟨hi, rfl⟩ : r.instr = i ∧ tail = rest := by simpa [decode, hb, hm] using h
      exact ⟨b0, b1, b2, r, rfl, hm, hi⟩

/-- Decode of encode is the identity, whatever follows. -/
theorem decode_encode_append (i : Instr) (rest : List Byte) : decode (encode i ++ rest) = .ok (i, rest) := by
  cases i
  rfl

/-- No other bytes decode: the one row of the table matches the bytes of `ENCLU` alone. -/
theorem eq_encode_append_of_decode {bs rest : List Byte} {i : Instr} (h : decode bs = .ok (i, rest)) :
    bs = encode i ++ rest := by
  obtain ⟨b0, b1, b2, r, rfl, hm, rfl⟩ := decode_eq_ok h
  obtain ⟨⟨rfl, rfl, rfl⟩, rfl⟩ := matchRow_eq_some.1 hm
  rfl

/-- Settles O2: each direction is one half of the round trip. -/
theorem decodeAcceptsExactlyTheEncodings : Obligations.DecodeAcceptsExactlyTheEncodings := by
  intro bs i rest
  constructor
  · exact eq_encode_append_of_decode
  · rintro rfl
    exact decode_encode_append i rest

/-- Settles O1: the bytes are `encode .enclu`, also when written as the opcode table's number. -/
theorem encluBytesDecode : Obligations.EncluBytesDecode := by
  have hdecode : decode [0x0F#8, 0x01#8, 0xD7#8] = .ok (.enclu, []) := decode_encode_append .enclu []
  have htable : tableBytes 24 0x0F01D7 = [0x0F#8, 0x01#8, 0xD7#8] := by decide
  refine ⟨hdecode, ?_, rfl⟩
  rw [decodeTableWord, htable, hdecode]

/-- Settles O3: the listed bytes are those of `prefixBytes`. -/
theorem prefixedFormsAreRejected : Obligations.PrefixedFormsAreRejected :=
  fun _ hb rest => decode_cons_of_mem_prefixBytes hb rest

end Sys2Proof

namespace Sys2Proof.Machine

/-! ### The fetch -/

/-- Bytes that stand, each on a readable page, where the instruction's bytes from `k` on are fetched are what is
fetched. -/
theorem fetchFrom_eq_ok (s : State) (bs : List Byte) (k : Nat)
    (h : ∀ j, j < bs.length → ∃ pa, translateAddr s.plat (fetchLinear s (k + j)) .read = .ok pa ∧
      Memory.get s.mem pa.toNat = bs.getD j 0#8) :
    fetchFrom s k bs.length = .ok bs := by
  induction bs generalizing k with
  | nil => rfl
  | cons b bs ih =>
    obtain ⟨pa, hpa, hbyte⟩ := h 0 (by simp)
    have htail : fetchFrom s (k + 1) bs.length = .ok bs := by
      apply ih
      intro j hj
      simpa [Nat.add_assoc, Nat.add_comm 1 j] using h (j + 1) (by simpa using hj)
    rw [Nat.add_zero] at hpa
    have hb : Memory.get s.mem pa.toNat = b := hbyte
    simp [fetchFrom, hpa, htail, hb]

/-- Every instruction is as long as the fetch. -/
theorem length_encode (i : Instr) : (encode i).length = maxInstrBytes := by
  cases i
  rfl

/-- Fetched bytes that encode an instruction are that instruction. -/
theorem fetchInstr_of_fetchBytes {s : State} {i : Instr} (h : fetchBytes s = .ok (encode i)) :
    fetchInstr s = .ok i := by
  have hdecode : decode (encode i) = .ok (i, []) := by simpa using decode_encode_append i []
  simp [fetchInstr, h, hdecode]

theorem step_of_fetchInstr {s : State} {i : Instr} (h : fetchInstr s = .ok i) : step s = exec i s := by
  rw [step, h]

/-- Settles O4: the bytes fetched are the encoding, which decodes to its instruction. -/
theorem stepRunsTheDecodedInstruction : Obligations.StepRunsTheDecodedInstruction := by
  intro s i hbytes
  have hfetch : fetchBytes s = .ok (encode i) := by
    rw [fetchBytes, ← length_encode i]
    exact fetchFrom_eq_ok s (encode i) 0 (by simpa using hbytes)
  exact step_of_fetchInstr (fetchInstr_of_fetchBytes hfetch)

/-! ### The leaf and the premises -/

/-- The leaf and the premises are tested before every other cause. -/
theorem exec_enclu_of_premise {s : State} {r : Refusal} (h : firstStop (premiseCauses s) = some (.refuse r)) :
    exec .enclu s = .refused r := by
  have hstop : firstStop (eresumeCauses s) = some (.refuse r) := by
    simp only [eresumeCauses, List.append_assoc]
    exact firstStop_append_of_some h _
  exact execEnclu_of_stop hstop

/-- Settles O5: the leaf is the first cause tested. -/
theorem otherLeavesAreRefused : Obligations.OtherLeavesAreRefused := by
  intro s hleaf
  have hstop : firstStop (premiseCauses s) = some (.refuse (.leafNotInSpec (leaf s))) := by
    simp [premiseCauses, firstStop_cons, hleaf]
  exact exec_enclu_of_premise hstop

/-- Settles O7: in each clause the causes before the one named do not fire. -/
theorem premisesUnmetAreRefused : Obligations.PremisesUnmetAreRefused := by
  intro s hleaf
  refine ⟨fun hsgx => ?_, fun hsgx1 henabled => ⟨fun hmode => ?_, fun hmode hpaging hcpl => ?_⟩⟩ <;>
    apply exec_enclu_of_premise
  · simp [premiseCauses, firstStop_cons, hleaf, hsgx]
  · simp [premiseCauses, firstStop_cons, hleaf, hsgx1, henabled, hmode]
  · simp [premiseCauses, firstStop_cons, hleaf, hsgx1, henabled, hmode, hpaging, hcpl]

/-- The state with another value of `RAX`. -/
def withRax (s : State) (v : Word) : State := { s with gpr := { s.gpr with rax := v } }

@[simp] theorem withRax_plat (s : State) (v : Word) : (withRax s v).plat = s.plat := rfl
@[simp] theorem withRax_prem (s : State) (v : Word) : (withRax s v).prem = s.prem := rfl

/-- The leaf and the premises read `EAX` alone of `RAX` (30_encoding.md R131). -/
theorem premiseCauses_withRax {s : State} {v : Word} (h : v.setWidth 32 = leaf s) :
    premiseCauses (withRax s v) = premiseCauses s := by
  have hleaf : leaf (withRax s v) = leaf s := h
  simp [premiseCauses, hleaf]

/-- Every later cause reads no part of `RAX`: the two lists are the same by computation. -/
theorem eresumeCauses_withRax {s : State} {v : Word} (h : v.setWidth 32 = leaf s) :
    eresumeCauses (withRax s v) = eresumeCauses s := by
  unfold eresumeCauses
  rw [premiseCauses_withRax h]
  rfl

/-- An execution enters the enclave exactly when no cause fires. -/
theorem exec_enclu_enters_iff (s : State) :
    (∃ t, exec .enclu s = .next t) ↔ firstStop (eresumeCauses s) = none := by
  simp [execEnclu_eq_next]

/-- Settles O6: with the same `EAX` the same causes fire. -/
theorem upperHalfOfRaxIsNotConsulted : Obligations.UpperHalfOfRaxIsNotConsulted := by
  intro s v hv
  have hcauses : eresumeCauses (withRax s v) = eresumeCauses s := eresumeCauses_withRax hv
  rw [exec_enclu_enters_iff, ← hcauses]
  exact (exec_enclu_enters_iff (withRax s v)).symm

/-! ### What refuses -/

/-- No cause of the list ends in a refusal. -/
def NeverRefuses (cs : List Cause) : Prop := ∀ c ∈ cs, ∀ r, c.stop ≠ .refuse r

/-- A refusal passes over a group that never refuses: none of its causes fires. -/
theorem firstStop_append_refuse {a b : List Cause} {r : Refusal} (ha : NeverRefuses a)
    (h : firstStop (a ++ b) = some (.refuse r)) : firstStop a = none ∧ firstStop b = some (.refuse r) := by
  cases hf : firstStop a with
  | none => exact ⟨rfl, by rwa [firstStop_append_of_none hf] at h⟩
  | some st =>
    obtain ⟨c, hc, -, hstop⟩ := firstStop_some_mem hf
    rw [firstStop_append_of_some hf, Option.some.injEq, ← hstop] at h
    exact absurd h (ha c hc r)

theorem neverRefuses_append {a b : List Cause} (ha : NeverRefuses a) (hb : NeverRefuses b) : NeverRefuses (a ++ b) :=
  fun c hc => (List.mem_append.1 hc).elim (ha c) (hb c)

theorem neverRefuses_of_gp {cs : List Cause} (h : ∀ c ∈ cs, c.stop = .raised .gp) : NeverRefuses cs :=
  fun c hc r => by simp [h c hc]

/-- A fault of `Translate` is delivered, not refused. -/
theorem xlatCause_stop_ne_refuse (n : Nat) (s : State) (la : Word) (r : Refusal) :
    (xlatCause n s la).stop ≠ .refuse r := by
  cases h : translateAddr s.plat la .readwrite with
  | ok pa => simp [xlatCause, h]
  | fault f => simp [xlatCause_of_fault h]

theorem tcsPageCauses_neverRefuses (s : State) : NeverRefuses (tcsPageCauses s) := by
  simp [NeverRefuses, tcsPageCauses, xlatCause_stop_ne_refuse]

theorem ssaPageCauses_neverRefuses (s : State) (n : Nat) (k : Config.PfPage) (la page : Word) :
    NeverRefuses (ssaPageCauses s n k la page) := by
  simp [NeverRefuses, ssaPageCauses, xlatCause_stop_ne_refuse]

theorem xsaveCauses_neverRefuses (s : State) : NeverRefuses (xsaveCauses s) := by
  intro c hc
  obtain ⟨p, -, hcp⟩ := List.mem_flatMap.1 hc
  exact ssaPageCauses_neverRefuses s _ _ _ _ c hcp

theorem gprPageCauses_neverRefuses (s : State) : NeverRefuses (gprPageCauses s) :=
  neverRefuses_append (ssaPageCauses_neverRefuses s _ _ _ _) (neverRefuses_of_gp (by simp))

/-- Past the premises, a refusal comes after every check up to R202, from the causes that read the GPR area. -/
theorem frameOk_of_refuse {s : State} {r : Refusal} (hadm : Admitted s)
    (h : firstStop (eresumeCauses s) = some (.refuse r)) :
    FrameOk s ∧ firstStop (targetCauses s ++ claimCauses s) = some (.refuse r) := by
  rw [eresume_from_mode hadm] at h
  obtain ⟨hmode, h⟩ := firstStop_append_refuse (neverRefuses_of_gp (modeCauses_stop s)) h
  obtain ⟨htcs, h⟩ := firstStop_append_refuse (tcsPageCauses_neverRefuses s) h
  obtain ⟨hconfig, h⟩ := firstStop_append_refuse (neverRefuses_of_gp (configCauses_stop s)) h
  obtain ⟨hxsave, h⟩ := firstStop_append_refuse (xsaveCauses_neverRefuses s) h
  obtain ⟨hgpr, h⟩ := firstStop_append_refuse (gprPageCauses_neverRefuses s) h
  obtain ⟨hpage, hds⟩ := (gprPageCauses_none s).1 hgpr
  exact ⟨⟨hadm, (modeCauses_none s).1 hmode, (tcsPageCauses_none s).1 htcs, (configCauses_none s).1 hconfig,
    (xsaveCauses_none s).1 hxsave, hpage, hds⟩, h⟩

/-- A field read by the checks (R204, R208) is refused by the one name, and only where it is not readable. -/
theorem targetCauses_refuse {s : State} {c : Cause} {r : Refusal} (hc : c ∈ targetCauses s)
    (hstop : c.stop = .refuse r) :
    r = .gprAreaUnchecked ∧ (CheckFieldsReadable s → c.fires = false) := by
  simp only [targetCauses, List.mem_cons, List.not_mem_nil, or_false] at hc
  rcases hc with rfl | rfl | rfl | rfl | rfl | rfl
  · obtain rfl : Refusal.gprAreaUnchecked = r := by simpa using hstop
    exact ⟨rfl, fun hf => by simp [hf.rip]⟩
  · simp at hstop
  · simp at hstop
  · simp at hstop
  · obtain rfl : Refusal.gprAreaUnchecked = r := by simpa using hstop
    refine ⟨rfl, fun hf => ?_⟩
    cases hm : mode64 s
    · simp
    · simp [hf.fsbase hm, hf.gsbase hm]
  · simp at hstop

/-- A field read by the commit (R243) is refused by the one name, and only where it is not readable. -/
theorem claimCauses_refuse {s : State} {c : Cause} {r : Refusal} (hc : c ∈ claimCauses s)
    (hstop : c.stop = .refuse r) :
    r = .gprAreaUnchecked ∧ (CommitFieldsReadable s → c.fires = false) := by
  simp only [claimCauses, List.mem_cons, List.not_mem_nil, or_false] at hc
  rcases hc with rfl | rfl | rfl
  · simp at hstop
  · simp at hstop
  · obtain rfl : Refusal.gprAreaUnchecked = r := by simpa using hstop
    refine ⟨rfl, fun hf => ?_⟩
    have hread : ∀ off ∈ commitOffsets s.plat, gprFieldChecked s off = true :=
      (commitOffsets_forall s.plat fun off => gprFieldChecked s off = true).2 ⟨hf.rflags, hf.gprs⟩
    rw [refuseCause_fires, List.all_eq_true.2 hread]
    rfl

/-- A refusal past R202 names the GPR area, a field of which is not readable (93_implementation_defined.md U5). -/
theorem gprAreaUnchecked_of_refuse {s : State} {r : Refusal}
    (h : firstStop (targetCauses s ++ claimCauses s) = some (.refuse r)) :
    r = .gprAreaUnchecked ∧ ¬ (CheckFieldsReadable s ∧ CommitFieldsReadable s) := by
  obtain ⟨c, hc, hfires, hstop⟩ := firstStop_some_mem h
  have hcause : r = .gprAreaUnchecked ∧ (CheckFieldsReadable s ∧ CommitFieldsReadable s → c.fires = false) := by
    rcases List.mem_append.1 hc with hc | hc
    · exact (targetCauses_refuse hc hstop).imp_right fun hf hr => hf hr.1
    · exact (claimCauses_refuse hc hstop).imp_right fun hf hr => hf hr.2
  exact ⟨hcause.1, fun hread => by simp [hcause.2 hread] at hfires⟩

/-- A refusal is the stop of a cause: no fault and no commit is one. -/
theorem execEnclu_eq_refused {s : State} {r : Refusal} (h : execEnclu s = .refused r) :
    firstStop (eresumeCauses s) = some (.refuse r) := by
  cases hf : firstStop (eresumeCauses s) with
  | none => simp [execEnclu_of_none hf] at h
  | some st =>
    rw [execEnclu_of_stop hf] at h
    cases st with
    | raised e => cases e <;> simp [stopOutcome, raise] at h
    | xrstorFailed => simp [stopOutcome, raise] at h
    | refuse r' => simpa [stopOutcome] using h

/-- Settles O9: with the premises met no group before the resume address refuses, and what refuses from there on is a
field of the GPR area. -/
theorem refusesOnlyOutsideTheSpec : Obligations.RefusesOnlyOutsideTheSpec := by
  intro s r h
  by_cases hadm : Admitted s
  · obtain ⟨hframe, hrest⟩ := frameOk_of_refuse hadm (execEnclu_eq_refused h)
    exact .inr ⟨hframe, gprAreaUnchecked_of_refuse hrest⟩
  · exact .inl hadm

end Sys2Proof.Machine
end

section
/-! The checks of `ENCLU[ERESUME]` (40_enclu_eresume_checks.md): when it enters the enclave, which exception each failing
check ends in, and the addresses of the SSA frame. -/

namespace Sys2Proof.Machine

open Sys2Proof.Config

/-! ### The stop of a group of causes -/

/-- What holds of every cause that fires holds of the stop. -/
theorem firstStop_some_of_forall (P : Stop → Prop) {cs : List Cause} (hP : ∀ c ∈ cs, c.fires = true → P c.stop)
    (h : firstStop cs ≠ none) : ∃ st, firstStop cs = some st ∧ P st := by
  obtain ⟨st, hst⟩ := Option.ne_none_iff_exists'.1 h
  obtain ⟨c, hc, hfires, rfl⟩ := firstStop_some_mem hst
  exact ⟨c.stop, hst, hP c hc hfires⟩

theorem firstStop_flatMap_none {α : Type} {f : α → List Cause} {l : List α} (h : ∀ a ∈ l, firstStop (f a) = none) :
    firstStop (l.flatMap f) = none := by
  simp only [firstStop_eq_none, List.mem_flatMap] at h ⊢
  rintro c ⟨a, ha, hc⟩
  exact h a ha c hc

theorem xlatCause_of_ok {n : Nat} {s : State} {la pa : Word} (h : translateAddr s.plat la .readwrite = .ok pa) :
    xlatCause n s la = gpCause n false := by
  simp [xlatCause, h]

theorem paOf_of_ok {s : State} {la pa : Word} (h : translateAddr s.plat la .readwrite = .ok pa) : paOf s la = pa := by
  simp [paOf, h]

section
/-! Past the checks before a group, the stop of the group ends the instruction. -/

variable {s : State} {st : Stop}

theorem stop_of_tcsPageCauses (ha : Admitted s) (hm : ModeOk s) (h : firstStop (tcsPageCauses s) = some st) :
    firstStop (eresumeCauses s) = some st :=
  (eresume_from_tcsPage ha hm).trans (firstStop_append_of_some h _)

theorem stop_of_gprPageCauses (ha : Admitted s) (hm : ModeOk s) (ht : TcsPageOk s) (hc : ConfigOk s)
    (hx : XsavePagesOk s) (h : firstStop (gprPageCauses s) = some st) : firstStop (eresumeCauses s) = some st :=
  (eresume_from_gprPage ha hm ht hc hx).trans (firstStop_append_of_some h _)

theorem stop_of_targetCauses (hf : FrameOk s) (h : firstStop (targetCauses s) = some st) :
    firstStop (eresumeCauses s) = some st :=
  (eresume_from_target hf).trans (firstStop_append_of_some h _)

end

/-! ### The mode and the segments -/

/-- Past the premises every failure among R160 to R166 is a `#GP(0)`. -/
theorem endsInGp_of_not_modeOk {s : State} (ha : Admitted s) (h : ¬ ModeOk s) : EndsInGp s := by
  have hstop := firstStop_eq_gp (modeCauses_stop s) (mt (modeCauses_none s).1 h)
  exact endsInGp_of_stop ((eresume_from_mode ha).trans (firstStop_append_of_some hstop _))

/-- Settles O10: each of the conditions contradicts R160 or R162. -/
theorem enclaveModeAndBadDsRaiseGp : Obligations.EnclaveModeAndBadDsRaiseGp := by
  intro s ha hbad
  refine endsInGp_of_not_modeOk ha fun hok => ?_
  rcases hbad with henclave | ⟨hm, hunusable | hdown⟩
  · simp [hok.notInEnclave] at henclave
  · simp [(hok.dsUsable hm).1] at hunusable
  · exact (hok.dsUsable hm).2 hdown

/-- The state `s` with the bases of CS and DS, and all of ES and SS, of `u`. -/
def withSegments (s u : State) : State :=
  { s with cs := { s.cs with base := u.cs.base }, ds := { s.ds with base := u.ds.base }, es := u.es, ss := u.ss }

section
variable {s : State} (u : State)

@[simp] theorem withSegments_mode64 : mode64 (withSegments s u) = mode64 s := rfl

/-! In 64-bit mode no linear address uses a base (20_memory.md R93). Each temporary reads the segments through its linear
addresses alone, and so each group of causes does. -/

variable (h : mode64 s = true)
include h

theorem withSegments_dsLinear : dsLinear (withSegments s u) = dsLinear s := by
  funext off
  simp [dsLinear, h]

theorem withSegments_tcsLinear : tcsLinear (withSegments s u) = tcsLinear s :=
  congrFun (withSegments_dsLinear u h) _

theorem withSegments_aepLinear : aepLinear (withSegments s u) = aepLinear s := by
  rw [aepLinear, aepLinear, withSegments_mode64, h]
  rfl

theorem withSegments_tcsOf : tcsOf (withSegments s u) = tcsOf s := by
  rw [tcsOf, tcsKey, withSegments_tcsLinear u h]
  rfl

theorem withSegments_secsOf : secsOf (withSegments s u) = secsOf s := by
  rw [secsOf, tmpSecs, withSegments_tcsLinear u h]
  rfl

theorem withSegments_tmpSsa : tmpSsa (withSegments s u) = tmpSsa s := by
  rw [tmpSsa, frameBytes, withSegments_tcsOf u h, withSegments_secsOf u h]
  rfl

theorem withSegments_tmpGpr : tmpGpr (withSegments s u) = tmpGpr s := by
  rw [tmpGpr, frameBytes, withSegments_tmpSsa u h, withSegments_secsOf u h]
  rfl

theorem withSegments_ssaPages : ssaPages (withSegments s u) = ssaPages s := by
  rw [ssaPages, tmpXsize, withSegments_tmpSsa u h, withSegments_secsOf u h]
  rfl

theorem withSegments_xsaveByte : xsaveByte (withSegments s u) = xsaveByte s := by
  funext k
  rw [xsaveByte, withSegments_tmpSsa u h, withSegments_dsLinear u h]
  rfl

theorem withSegments_xrstorFails : xrstorFails (withSegments s u) = xrstorFails s := by
  rw [xrstorFails, xrstorMustFail, xrstorArgs, xsaveBytes, tmpXsize, withSegments_xsaveByte u h,
    withSegments_secsOf u h]
  rfl

theorem withSegments_gprByteLinear : gprByteLinear (withSegments s u) = gprByteLinear s := by
  funext off i
  rw [gprByteLinear, withSegments_tmpGpr u h, withSegments_dsLinear u h]
  rfl

theorem withSegments_gprField : gprField (withSegments s u) = gprField s := by
  funext off
  rw [gprField, withSegments_gprByteLinear u h]
  rfl

theorem withSegments_gprFieldChecked : gprFieldChecked (withSegments s u) = gprFieldChecked s := by
  funext off
  rw [gprFieldChecked, checkedPages, withSegments_gprByteLinear u h, withSegments_tmpGpr u h,
    withSegments_ssaPages u h, withSegments_dsLinear u h]
  rfl

theorem withSegments_modeCauses : modeCauses (withSegments s u) = modeCauses s := by
  simp only [modeCauses, withSegments_mode64, h, Bool.not_true, Bool.false_and]
  rfl

theorem withSegments_tcsPageCauses : tcsPageCauses (withSegments s u) = tcsPageCauses s := by
  rw [tcsPageCauses, withSegments_tcsLinear u h, withSegments_aepLinear u h]
  rfl

theorem withSegments_configCauses : configCauses (withSegments s u) = configCauses s := by
  rw [configCauses, xfrmIllegal, withSegments_tcsOf u h, withSegments_secsOf u h]
  rfl

theorem withSegments_ssaPageCauses : ssaPageCauses (withSegments s u) = ssaPageCauses s := by
  funext n k la page
  rw [ssaPageCauses, tmpSecs, withSegments_tcsLinear u h]
  rfl

theorem withSegments_xsaveCauses : xsaveCauses (withSegments s u) = xsaveCauses s := by
  rw [xsaveCauses, withSegments_ssaPages u h, withSegments_ssaPageCauses u h, withSegments_dsLinear u h]
  rfl

theorem withSegments_gprPageCauses : gprPageCauses (withSegments s u) = gprPageCauses s := by
  rw [gprPageCauses, withSegments_ssaPageCauses u h, withSegments_dsLinear u h, withSegments_tmpGpr u h]
  rfl

theorem withSegments_targetCauses : targetCauses (withSegments s u) = targetCauses s := by
  simp only [targetCauses, tmpTarget, tmpFsbase, tmpGsbase, withSegments_gprField u h,
    withSegments_gprFieldChecked u h, withSegments_mode64, h, Bool.not_true, Bool.false_and, if_true]
  rfl

theorem withSegments_claimCauses : claimCauses (withSegments s u) = claimCauses s := by
  rw [claimCauses, withSegments_tcsOf u h, withSegments_xrstorFails u h, withSegments_gprFieldChecked u h]
  rfl

theorem withSegments_eresumeCauses : eresumeCauses (withSegments s u) = eresumeCauses s := by
  rw [eresumeCauses, withSegments_modeCauses u h, withSegments_tcsPageCauses u h, withSegments_configCauses u h,
    withSegments_xsaveCauses u h, withSegments_gprPageCauses u h, withSegments_targetCauses u h,
    withSegments_claimCauses u h]
  rfl

end

/-- Settles O11: outside 64-bit mode each condition contradicts one of R163 to R166; in it the same causes fire whatever
the segments. -/
theorem segmentBasesRaiseGp : Obligations.SegmentBasesRaiseGp := by
  refine ⟨fun s ha hm hbad => ?_, fun s csBase dsBase es ss hm => ?_⟩
  · refine endsInGp_of_not_modeOk ha fun hok => ?_
    rcases hbad with hcs | hds | ⟨hes, hbase⟩ | ⟨hss, hbase⟩ | ⟨hss, hbig⟩
    · exact hcs (hok.codeDataFlat hm).1
    · exact hds (hok.codeDataFlat hm).2
    · exact hbase (hok.esFlat hm hes)
    · exact hbase (hok.ssFlat hm hss)
    · simp [hok.ssBig hm hss] at hbig
  · have hcauses := withSegments_eresumeCauses
      { s with cs := { s.cs with base := csBase }, ds := { s.ds with base := dsBase }, es := es, ss := ss } hm
    rw [exec_enclu_enters_iff, ← hcauses]
    exact (exec_enclu_enters_iff (withSegments s _)).symm

/-! ### The address of the TCS and the AEP -/

/-- The low 12 bits of an effective address are those of its operand, in either mode. -/
theorem setWidth_12_ea (m64 : Bool) (v : Word) : (ea m64 v).setWidth 12 = v.setWidth 12 := by
  apply BitVec.eq_of_toNat_eq
  rw [toNat_setWidth_12, toNat_setWidth_12, toNat_ea]
  cases m64
  · simp only [Bool.false_eq_true, if_false]
    omega
  · simp only [if_true]
    omega

theorem aligned4K_eq_true (v : Word) : aligned4K v = true ↔ v.setWidth 12 = 0#12 := by
  rw [aligned4K, beq_iff_eq]

/-- A misaligned TCS address ends in `#GP(0)`, whether a mode check or R167 raises it. -/
theorem endsInGp_of_misaligned {s : State} (ha : Admitted s) (h : aligned4K (tcsLinear s) = false) : EndsInGp s := by
  by_cases hm : ModeOk s
  · have hstop : firstStop (tcsPageCauses s) = some (.raised .gp) := by simp [tcsPageCauses, firstStop_cons, h]
    exact endsInGp_of_stop (stop_of_tcsPageCauses ha hm hstop)
  · exact endsInGp_of_not_modeOk ha hm

/-- Settles O12: with a base of 0 the linear address has the low 12 bits of `RBX`. -/
theorem misalignedTcsRaisesGp : Obligations.MisalignedTcsRaisesGp := by
  intro s ha
  refine ⟨endsInGp_of_misaligned ha, fun hm hrbx => endsInGp_of_misaligned ha ?_⟩
  have hlow : (tcsLinear s).setWidth 12 = s.gpr.rbx.setWidth 12 := by
    rw [tcsLinear, tcsOffset, dsLinear_ea hm, setWidth_12_ea]
  rw [← Bool.not_eq_true, aligned4K_eq_true, hlow]
  exact hrbx

/-- Settles O13: of an aligned address R168 is the first cause that can fire. -/
theorem tcsOutsideEpcFaults : Obligations.TcsOutsideEpcFaults := by
  intro s ha hm haligned
  refine ⟨fun f hf => ?_, fun pa hpa hepc => ?_⟩
  · have hstop : firstStop (tcsPageCauses s) = some (.raised (.delivered f)) := by
      simp [tcsPageCauses, firstStop_cons, haligned, xlatCause_of_fault hf]
    exact endsInTranslationFault_of_stop (stop_of_tcsPageCauses ha hm hstop)
  · have hstop : firstStop (tcsPageCauses s) = some (.raised (.pf (tcsLinear s) ⟨.tcs, .notInEpc⟩)) := by
      simp [tcsPageCauses, firstStop_cons, haligned, xlatCause_of_ok hpa, paOf_of_ok hpa, hepc]
    exact endsInPf_of_stop (stop_of_tcsPageCauses ha hm hstop)

/-- Once the TCS address resolves, R169 is the first cause that can fire, and R170 the next. -/
theorem firstStop_tcsPageCauses_of_resolves {s : State} (hr : TcsResolves s)
    (h : ¬ AepOk s ∨ s.oracle.tcsLockConflict = true) : firstStop (tcsPageCauses s) = some (.raised .gp) := by
  obtain ⟨haligned, ⟨pa, hpa⟩, hepc⟩ := hr
  rcases h with haep | hlock
  · obtain ⟨h64, hcanon⟩ : mode64 s = true ∧ canonical s.plat.laBits (aepLinear s) = false := by
      simpa [AepOk] using haep
    simp [tcsPageCauses, firstStop_cons, haligned, xlatCause_of_ok hpa, hepc, h64, hcanon]
  · simp [tcsPageCauses, firstStop_cons, haligned, xlatCause_of_ok hpa, hepc, hlock]

/-- The state with another value of `RCX`. -/
def withRcx (s : State) (v : Word) : State := { s with gpr := { s.gpr with rcx := v } }

/-- Outside 64-bit mode no cause reads `RCX`: R169 is about 64-bit mode alone. -/
theorem eresumeCauses_withRcx {s : State} (v : Word) (h : mode64 s = false) :
    eresumeCauses (withRcx s v) = eresumeCauses s := by
  have hmode : mode64 (withRcx s v) = false := h
  have htcs : tcsPageCauses (withRcx s v) = tcsPageCauses s := by
    simp only [tcsPageCauses, h, hmode, Bool.false_and]
    rfl
  rw [eresumeCauses, htcs]
  rfl

/-- Settles O14: in 64-bit mode the linear address of the AEP is `RCX`; outside it the same causes fire whatever
`RCX`. -/
theorem nonCanonicalAepRaisesGp : Obligations.NonCanonicalAepRaisesGp := by
  refine ⟨fun s ha hm hr h64 hcanon => ?_, fun s v h32 => ?_⟩
  · have haep : aepLinear s = s.gpr.rcx := by simp [aepLinear, aepOffset, ea, h64]
    have hbad : ¬ AepOk s := fun hok => by simp [← haep, hok h64] at hcanon
    exact endsInGp_of_stop (stop_of_tcsPageCauses ha hm (firstStop_tcsPageCauses_of_resolves hr (.inl hbad)))
  · rw [exec_enclu_enters_iff, ← eresumeCauses_withRcx v h32]
    exact (exec_enclu_enters_iff (withRcx s v)).symm

/-! ### The EPCM entry of the TCS page -/

/-- The stop is a `#PF` at `la`, whatever the cause its error code is drawn for. -/
def RaisesPf (la : Word) (st : Stop) : Prop := ∃ cause, st = .raised (.pf la cause)

theorem endsInPf_of_raisesPf {s : State} {la : Word}
    (h : ∃ st, firstStop (eresumeCauses s) = some st ∧ RaisesPf la st) : EndsInPf s la := by
  obtain ⟨_, hstop, _, rfl⟩ := h
  exact endsInPf_of_stop hstop

/-- Past R170 every cause that is left among the TCS page checks is a `#PF` at the TCS. -/
theorem raisesPf_of_tcsEntry {s : State} (hr : TcsResolves s) (haep : AepOk s)
    (hlock : s.oracle.tcsLockConflict = false) (h : ¬ TcsEntryOk s) :
    ∃ st, firstStop (tcsPageCauses s) = some st ∧ RaisesPf (tcsLinear s) st := by
  refine firstStop_some_of_forall _ (fun c hc hfires => ?_) fun hnone => h ((tcsPageCauses_none s).1 hnone).entry
  obtain ⟨haligned, ⟨pa, hpa⟩, hepc⟩ := hr
  simp only [tcsPageCauses, List.mem_cons, List.not_mem_nil, or_false] at hc
  rcases hc with rfl | rfl | rfl | rfl | rfl | rfl | rfl | rfl | rfl
  · simp [haligned] at hfires
  · simp [xlatCause_of_ok hpa] at hfires
  · simp [hepc] at hfires
  · simp only [gpCause_fires, Bool.and_eq_true, Bool.not_eq_true'] at hfires
    simp [haep hfires.1] at hfires
  · simp [hlock] at hfires
  all_goals exact ⟨_, rfl⟩

/-- Settles O16: each condition contradicts one of R171 to R174. -/
theorem badTcsEntryRaisesPf : Obligations.BadTcsEntryRaisesPf := by
  intro s ha hm hr haep hlock hbad
  have hentry : ¬ TcsEntryOk s := fun hok => by
    simp [hok.valid, hok.notBlocked, hok.notPending, hok.notModified, hok.address, hok.pageType] at hbad
  obtain ⟨st, hstop, hpf⟩ := raisesPf_of_tcsEntry hr haep hlock hentry
  exact endsInPf_of_raisesPf ⟨st, stop_of_tcsPageCauses ha hm hstop, hpf⟩

/-! ### The TCS fields, the SECS and the configuration -/

/-- Past the TCS page every failure among R175 to R184 is a `#GP(0)`. -/
theorem endsInGp_of_not_configOk {s : State} (ha : Admitted s) (hm : ModeOk s) (ht : TcsPageOk s)
    (h : ¬ ConfigOk s) : EndsInGp s := by
  have hstop := firstStop_eq_gp (configCauses_stop s) (mt (configCauses_none s).1 h)
  exact endsInGp_of_stop ((eresume_from_config ha hm ht).trans (firstStop_append_of_some hstop _))

/-- Settles O17: each condition contradicts R175, R176 or R178. -/
theorem badTcsFieldsRaiseGp : Obligations.BadTcsFieldsRaiseGp := by
  intro s ha hm ht hbad
  refine endsInGp_of_not_configOk ha hm ht fun hok => ?_
  rcases hbad with hossa | hfs | hgs | hflags
  · exact hossa ((aligned4K_eq_true _).1 hok.ossaAligned)
  · exact hfs ((aligned4K_eq_true _).1 hok.fsAligned)
  · exact hgs ((aligned4K_eq_true _).1 hok.gsAligned)
  · exact hflags ((flagsReserved_iff _).2 hok.flagsReserved)

/-- Settles O18: each condition contradicts one of R180 to R183. -/
theorem badConfigurationRaisesGp : Obligations.BadConfigurationRaisesGp := by
  intro s ha hm ht hbad
  refine endsInGp_of_not_configOk ha hm ht fun hok => ?_
  rcases hbad with hinit | hmode | hfxsr | ⟨hoff, hxfrm⟩ | ⟨hon, hxfrm⟩
  · simp [hok.initialized] at hinit
  · exact hmode hok.modeMatches
  · simp [hok.osfxsrSet] at hfxsr
  · exact hxfrm (hok.xfrmWithoutXsave hoff)
  · exact hxfrm (hok.xfrmWithXsave hon)

/-- Settles O19: the condition contradicts R184. -/
theorem noActiveFrameRaisesGp : Obligations.NoActiveFrameRaisesGp :=
  fun _ ha hm ht hcssa => endsInGp_of_not_configOk ha hm ht fun hok => hok.frameActive hcssa

/-- Settles O15: R170 comes before the EPCM entry is looked at, R179 with the configuration. -/
theorem oracleConflictsRaiseGp : Obligations.OracleConflictsRaiseGp := by
  intro s ha hm
  refine ⟨fun hr _ hlock => ?_, fun ht hbusy => ?_⟩
  · exact endsInGp_of_stop (stop_of_tcsPageCauses ha hm (firstStop_tcsPageCauses_of_resolves hr (.inr hlock)))
  · exact endsInGp_of_not_configOk ha hm ht fun hok => by simp [hok.secsFree] at hbusy

/-! ### The pages of the SSA frame -/

/-- A page that does not translate delivers that fault (R188, R196). -/
theorem firstStop_ssaPageCauses_of_fault {s : State} {la : Word} {f : DeliveredFault} (n : Nat) (k : PfPage)
    (page : Word) (h : translateAddr s.plat la .readwrite = .fault f) :
    firstStop (ssaPageCauses s n k la page) = some (.raised (.delivered f)) := by
  simp [ssaPageCauses, firstStop_cons, xlatCause_of_fault h]

/-- A page that translates and fails any other test raises `#PF` at the address checked (R189 to R193, R197 to R201). -/
theorem raisesPf_of_ssaPage {s : State} {la page pa : Word} (n : Nat) (k : PfPage)
    (hpa : translateAddr s.plat la .readwrite = .ok pa) (h : ¬ SsaPageOk s la page) :
    ∃ st, firstStop (ssaPageCauses s n k la page) = some st ∧ RaisesPf la st := by
  refine firstStop_some_of_forall _ (fun c hc hfires => ?_) (mt (ssaPageCauses_none s n k la page).1 h)
  simp only [ssaPageCauses, List.mem_cons, List.not_mem_nil, or_false] at hc
  rcases hc with rfl | rfl | rfl | rfl | rfl | rfl
  · simp [xlatCause_of_ok hpa] at hfires
  all_goals exact ⟨_, rfl⟩

/-- The first page of the XSAVE area that fails decides (40_enclu_eresume_checks.md R187). -/
theorem stop_of_xsavePage {s : State} {before after : List Word} {p : Word} {st : Stop} (ha : Admitted s)
    (hm : ModeOk s) (ht : TcsPageOk s) (hc : ConfigOk s) (hpages : ssaPages s = before ++ p :: after)
    (hbefore : ∀ q ∈ before, SsaPageOk s (dsLinear s q) (dsLinear s q))
    (h : firstStop (ssaPageCauses s 188 .xsave (dsLinear s p) (dsLinear s p)) = some st) :
    firstStop (eresumeCauses s) = some st := by
  have hpass : firstStop (before.flatMap fun q => ssaPageCauses s 188 .xsave (dsLinear s q) (dsLinear s q)) = none :=
    firstStop_flatMap_none fun q hq => (ssaPageCauses_none s _ _ _ _).2 (hbefore q hq)
  have hstop : firstStop (xsaveCauses s) = some st := by
    rw [xsaveCauses, hpages, List.flatMap_append, firstStop_append_of_none hpass, List.flatMap_cons]
    exact firstStop_append_of_some h _
  exact (eresume_from_xsave ha hm ht hc).trans (firstStop_append_of_some hstop _)

/-- Settles O20: each condition contradicts one of R189 to R193 at the first page that fails. -/
theorem xsavePageFaults : Obligations.XsavePageFaults := by
  intro s before after p ha hm ht hc hpages hbefore
  refine ⟨fun f hf => ?_, fun pa hpa hbad => ?_⟩
  · have hstop := firstStop_ssaPageCauses_of_fault 188 .xsave (dsLinear s p) hf
    exact endsInTranslationFault_of_stop (stop_of_xsavePage ha hm ht hc hpages hbefore hstop)
  · have hpage : ¬ SsaPageOk s (dsLinear s p) (dsLinear s p) := fun ⟨_, hepc, hok⟩ => by
      simp [← paOf_of_ok hpa, hepc, hok.valid, hok.notBlocked, hok.notPending, hok.notModified, hok.address,
        hok.pageType, hok.sameEnclave, hok.readable, hok.writable] at hbad
    obtain ⟨st, hstop, hpf⟩ := raisesPf_of_ssaPage 188 .xsave hpa hpage
    exact endsInPf_of_raisesPf ⟨st, stop_of_xsavePage ha hm ht hc hpages hbefore hstop, hpf⟩

/-- Settles O21: the page of the GPR area is tested before its place in DS. -/
theorem gprPageFaults : Obligations.GprPageFaults := by
  intro s ha hm ht hc hx
  refine ⟨fun f hf => ?_, fun pa hpa hbad => ?_⟩
  · have hstop := firstStop_ssaPageCauses_of_fault 196 .gpr (pageOf (dsLinear s (tmpGpr s))) hf
    exact endsInTranslationFault_of_stop (stop_of_gprPageCauses ha hm ht hc hx (firstStop_append_of_some hstop _))
  · have hpage : ¬ SsaPageOk s (dsLinear s (tmpGpr s)) (pageOf (dsLinear s (tmpGpr s))) := fun ⟨_, hepc, hok⟩ => by
      simp [← paOf_of_ok hpa, hepc, hok] at hbad
    obtain ⟨st, hstop, hpf⟩ := raisesPf_of_ssaPage 196 .gpr hpa hpage
    exact endsInPf_of_raisesPf
      ⟨st, stop_of_gprPageCauses ha hm ht hc hx (firstStop_append_of_some hstop _), hpf⟩

/-! ### The resume address, the segments and the claim -/

/-- A GPR area on a good page but not within DS ends in `#GP(0)` (R202). -/
theorem firstStop_gprPageCauses_of_outsideDs {s : State} (hpage : GprPageOk s) (h : ¬ GprInDs s) :
    firstStop (gprPageCauses s) = some (.raised .gp) := by
  have hstops : firstStop (gprPageCauses s) ≠ none := fun hnone => h ((gprPageCauses_none s).1 hnone).2
  rw [gprPageCauses, firstStop_append_of_none ((ssaPageCauses_none ..).2 hpage)] at hstops ⊢
  exact firstStop_eq_gp (by simp) hstops

/-- With every field the checks read readable, every failure among R204 to R208 is a `#GP(0)`. -/
theorem endsInGp_of_not_segmentsOk {s : State} (hf : FrameOk s) (hread : CheckFieldsReadable s)
    (h : ¬ SegmentsOk s) : EndsInGp s := by
  have hgp : ∃ st, firstStop (targetCauses s) = some st ∧ st = .raised .gp := by
    refine firstStop_some_of_forall _ (fun c hc hfires => ?_) fun hnone => h ((targetCauses_none s).1 hnone).2.2
    have hrefuse : ∀ r, c.stop ≠ .refuse r := fun r hr => by
      simp [(targetCauses_refuse hc hr).2 hread] at hfires
    simp only [targetCauses, List.mem_cons, List.not_mem_nil, or_false] at hc
    rcases hc with rfl | rfl | rfl | rfl | rfl | rfl <;> simp at hrefuse ⊢
  obtain ⟨_, hstop, rfl⟩ := hgp
  exact endsInGp_of_stop (stop_of_targetCauses hf hstop)

/-- Settles O22: with the saved `RIP` readable, R204 is the first cause past R202 that can fire. -/
theorem badResumeAddressRaisesGp : Obligations.BadResumeAddressRaisesGp := by
  intro s hf hread
  refine ⟨fun h64 hcanon => ?_, fun h32 habove => ?_⟩ <;> refine endsInGp_of_stop (stop_of_targetCauses hf ?_)
  · have htarget : tmpTarget s = gprField s s.plat.gprLayout.rip := by simp [tmpTarget, ea, h64]
    simp [targetCauses, firstStop_cons, hread, h64, htarget, hcanon]
  · have htarget : s.cs.limit.setWidth 64 < tmpTarget s := by
      simp only [tmpTarget, ea, h32, Bool.false_eq_true, if_false, BitVec.lt_def, BitVec.toNat_setWidth]
      omega
    simp [targetCauses, firstStop_cons, hread, h32, htarget]

/-- Settles O23: the conditions contradict R202, and R206 or R207. -/
theorem outsideDsRaisesGp : Obligations.OutsideDsRaisesGp := by
  intro s h32
  refine ⟨fun ha hm ht hc hx hpage hds => ?_, fun hf hread _ hbad => ?_⟩
  · have hstop := firstStop_gprPageCauses_of_outsideDs hpage hds
    exact endsInGp_of_stop (stop_of_gprPageCauses ha hm ht hc hx hstop)
  · refine endsInGp_of_not_segmentsOk hf hread fun hok => ?_
    exact hbad.elim (fun hfs => hfs (hok.fsWithin h32)) fun hgs => hgs (hok.gsWithin h32)

/-- Settles O24: the proposed bases are the saved ones, and either condition contradicts R208. -/
theorem nonCanonicalFsOrGsRaisesGp : Obligations.NonCanonicalFsOrGsRaisesGp := by
  intro s h64
  have hfs : tmpFsbase s = gprField s s.plat.gprLayout.fsbase := if_pos h64
  have hgs : tmpGsbase s = gprField s s.plat.gprLayout.gsbase := if_pos h64
  refine ⟨hfs, hgs, fun hf hread _ hbad => endsInGp_of_not_segmentsOk hf hread fun hok => ?_⟩
  simp [← hfs, ← hgs, hok.fsCanonical h64, hok.gsCanonical h64] at hbad

/-- Settles O25: R209 comes before XRSTOR. -/
theorem activeTcsRaisesGp : Obligations.ActiveTcsRaisesGp := by
  intro s hf hread ht hs hactive
  have hstop : firstStop (claimCauses s) = some (.raised .gp) := by simp [claimCauses, firstStop_cons, hactive]
  exact endsInGp_of_stop ((eresume_from_claim hf hread ht hs).trans hstop)

/-- Settles O8: an execution enters when no cause fires, which is R210. -/
theorem entersExactlyWhenResumable : Obligations.EntersExactlyWhenResumable :=
  fun s => (exec_enclu_enters_iff s).trans (eresumeCauses_none s)

/-! ### The addresses of the SSA frame -/

/-- Settles O49: reducing each sum and product by itself changes nothing, since 2^32 divides 2^64. -/
theorem ssaFrameAddress : Obligations.SsaFrameAddress := by
  intro s hcssa
  have hframe : ((tcsOf s).cssa - 1#32).toNat = (tcsOf s).cssa.toNat - 1 := by bv_omega
  have hword : ((tcsOf s).cssa.toNat - 1) % 2 ^ 64 = (tcsOf s).cssa.toNat - 1 := by omega
  simp only [tmpSsa, toNat_ea, BitVec.toNat_add, BitVec.toNat_mul, BitVec.toNat_setWidth, toNat_frameBytes,
    hframe, hword]
  generalize 4096 * (secsOf s).ssaframesize.toNat * ((tcsOf s).cssa.toNat - 1) = offset
  cases mode64 s
  · simp only [Bool.false_eq_true, if_false]
    omega
  · simp only [if_true]
    omega

/-- Settles O51: a subtraction of words is one of integers, reduced. -/
theorem gprAreaAddress : Obligations.GprAreaAddress := by
  intro s
  have hsize := (secsOf s).ssaframesize.isLt
  simp only [tmpGpr, toNat_ea, BitVec.toNat_sub, BitVec.toNat_add, BitVec.toNat_ofNat, toNat_frameBytes]
  cases mode64 s
  · simp only [Bool.false_eq_true, if_false]
    omega
  · simp only [if_true]
    omega

/-- Settles O53: the bound is one of the parameter's values. -/
theorem xsaveSizeIsAtLeast536 : Obligations.XsaveSizeIsAtLeast536 :=
  fun s => le_toNat_xsaveSize s.plat (secsOf s).xfrm

/-- The page of byte `k` of an area: the page of its first byte and as many pages on as `k` carries it. -/
theorem pageOf_add (a : Word) (k : Nat) :
    pageOf (a + BitVec.ofNat 64 k) = pageOf a + BitVec.ofNat 64 (4096 * ((a.toNat % 4096 + k) / 4096)) := by
  apply BitVec.eq_of_toNat_eq
  simp only [toNat_pageOf, BitVec.toNat_add, BitVec.toNat_ofNat]
  omega

/-- A page is one of the first `pageCount a n` exactly when a byte of the area lies on it. -/
theorem lt_pageCount_iff (a : Word) {n : Nat} (hn : 0 < n) (i : Nat) :
    i < pageCount a n ↔ ∃ k, k < n ∧ (a.toNat % 4096 + k) / 4096 = i := by
  rw [pageCount, toNat_setWidth_12]
  constructor
  · intro hi
    exact ⟨4096 * i - a.toNat % 4096, by omega, by omega⟩
  · rintro ⟨k, hk, rfl⟩
    omega

/-- The pages of an area that does not wrap are visited in ascending order. -/
theorem ssaPages_pairwise {s : State}
    (h : (tmpSsa s).toNat + (tmpXsize s).toNat ≤ 2 ^ (if mode64 s then 64 else 32)) :
    (ssaPages s).Pairwise fun p q => p.toNat < q.toNat := by
  rw [ssaPages, List.pairwise_map]
  refine List.pairwise_lt_range.imp_of_mem fun {i j} _ hj hij => ?_
  rw [List.mem_range, pageCount, toNat_setWidth_12] at hj
  simp only [toNat_ea, BitVec.toNat_add, BitVec.toNat_ofNat, toNat_pageOf]
  cases hm : mode64 s
  · simp only [hm, Bool.false_eq_true, if_false] at h ⊢
    omega
  · simp only [hm, if_true] at h ⊢
    omega

/-- Settles O50: the pages of the loop are those of the bytes, page `i` that of a byte `i` pages on. -/
theorem ssaPagesCoverTheXsaveArea : Obligations.SsaPagesCoverTheXsaveArea := by
  intro s
  refine ⟨fun p => ?_, ssaPages_pairwise⟩
  have hpos : 0 < (tmpXsize s).toNat := lt_of_lt_of_le (by decide) (xsaveSizeIsAtLeast536 s)
  simp only [ssaPages, List.mem_map, List.mem_range, pageOf_add, lt_pageCount_iff _ hpos]
  constructor
  · rintro ⟨_, ⟨k, hk, rfl⟩, rfl⟩
    exact ⟨k, hk, rfl⟩
  · rintro ⟨k, hk, rfl⟩
    exact ⟨_, ⟨k, hk, rfl⟩, rfl⟩

end Sys2Proof.Machine
end

section
/-! The commit of `ENCLU[ERESUME]` (41_enclu_eresume_commit.md): XRSTOR and its failure (R230 to R233), and what a
successful execution makes of each piece of state and leaves unchanged (R234 to R264). -/

namespace Sys2Proof.Machine

/-! ### XRSTOR fails -/

/-- With every check passed, an XRSTOR that fails is what stops the instruction (41_enclu_eresume_commit.md R233). -/
theorem stop_of_xrstorFails {s : State} (hp : ChecksPass s) (hx : xrstorFails s = true) :
    firstStop (eresumeCauses s) = some .xrstorFailed := by
  rw [eresume_from_claim hp.frame hp.fields hp.target hp.segments]
  simp [claimCauses, firstStop_cons, hp.inactive, hx]

/-- In a canonical state the claim and its undoing cancel, and `XSTATE` is all that a failed XRSTOR changes. -/
theorem stopOutcome_xrstorFailed {s : State} (hc : Canonical s) (hi : (tcsOf s).state = .inactive) :
    stopOutcome s .xrstorFailed =
      raise .gp { s with xstate := Config.freeXState (xrstorArgs s) s.xstate s.draws } := by
  rw [stopOutcome, release_claim s hc.tcs hi]

/-- Settles O26: the TCS that the claim found `INACTIVE` is as it was, and so is the rest. -/
theorem xrstorFailureUndoesTheClaim : Obligations.XrstorFailureUndoesTheClaim := by
  intro s hc hp hx
  have hexec := (execEnclu_of_stop (stop_of_xrstorFails hp hx)).trans (stopOutcome_xrstorFailed hc hp.inactive)
  exact ⟨_, hexec, hp.inactive, sameMachine_tick _⟩

/-- Bit `8 * i + j` of a little-endian value is bit `j` of its byte `i` (20_memory.md R100). -/
theorem getLsbD_leWord (bs : List Byte) (i : Nat) {j : Nat} (hj : j < 8) (hbit : 8 * i + j < 64) :
    (leWord bs).getLsbD (8 * i + j) = (bs.getD i 0#8).getLsbD j := by
  induction bs generalizing i with
  | nil => simp [leWord]
  | cons b t ih =>
    cases i with
    | zero => simp [leWord, hj, show j < 64 by omega]
    | succ i =>
      have hpast : b.getLsbD (8 * (i + 1) + j) = false := BitVec.getLsbD_of_ge b _ (by omega)
      have hrest : 8 * (i + 1) + j - 8 = 8 * i + j := by omega
      rw [leWord, BitVec.getLsbD_or, BitVec.getLsbD_shiftLeft, hrest, List.getD_cons_succ, ← ih i (by omega)]
      simp [hpast, hbit, show ¬ 8 * (i + 1) + j < 8 by omega]

/-- A non-zero byte among 520 to 535 forces the failure (41_enclu_eresume_commit.md R231). -/
theorem xrstorFails_of_reservedByte {s : State} {k : Nat} (hlo : 520 ≤ k) (hhi : k ≤ 535) (h : xsaveByte s k ≠ 0#8) :
    xrstorFails s = true := by
  have hany : ((List.range 16).any fun i => xsaveByte s (520 + i) != 0#8) = true := by
    refine List.any_eq_true.2 ⟨k - 520, List.mem_range.2 (by omega), ?_⟩
    rwa [Nat.add_sub_cancel' hlo, bne_iff_ne]
  simp [xrstorFails, xrstorMustFail, hany]

/-- A bit of the vector at offset 512 outside `XFRM` forces the failure (41_enclu_eresume_commit.md R231). -/
theorem xrstorFails_of_bitOutsideXfrm {s : State} {i j : Nat} (hi : i < 8) (hj : j < 8)
    (hset : (xsaveByte s (512 + i)).getLsbD j = true) (hclear : (secsOf s).xfrm.getLsbD (8 * i + j) = false) :
    xrstorFails s = true := by
  have hne : leWord ((List.range 8).map fun i => xsaveByte s (512 + i)) &&& (secsOf s).xfrm ≠
      leWord ((List.range 8).map fun i => xsaveByte s (512 + i)) := by
    intro heq
    have hbit := congrArg (·.getLsbD (8 * i + j)) heq
    simp [getLsbD_leWord _ i hj (by omega), hi, hset, hclear] at hbit
  simp [xrstorFails, xrstorMustFail, hne]

/-- Settles O27: either condition is a cause of R231, and a failed XRSTOR ends in `#GP(0)`. -/
theorem badXsaveHeaderFails : Obligations.BadXsaveHeaderFails := by
  intro s hp hbad
  have hx : xrstorFails s = true := by
    rcases hbad with ⟨k, hlo, hhi, hk⟩ | ⟨i, j, hi, hj, hset, hclear⟩
    · exact xrstorFails_of_reservedByte hlo hhi hk
    · exact xrstorFails_of_bitOutsideXfrm hi hj hset hclear
  exact ⟨hx, _, execEnclu_of_stop (stop_of_xrstorFails hp hx)⟩

/-! ### Registers -/

/-- Settles O31: `RIP` becomes `TMP_TARGET`, the effective address of the saved `RIP`. -/
theorem resumesAtTheSavedRip : Obligations.ResumesAtTheSavedRip :=
  fun _ hr => ⟨_, exec_enclu_of_resumable hr, rfl⟩

/-- A register with an offset is loaded from the GPR area (41_enclu_eresume_commit.md R243). -/
theorem readReg_restoredGprs_of_some {s : State} {r : Reg} {off : Nat} (h : readReg s.plat.gprLayout.reg r = some off) :
    readReg (restoredGprs s) r = gprField s off := by
  simp [restoredGprs, h]

/-- A register without an offset is kept (92_eei_decisions.md D21). -/
theorem readReg_restoredGprs_of_none {s : State} {r : Reg} (h : readReg s.plat.gprLayout.reg r = none) :
    readReg (restoredGprs s) r = readReg s.gpr r := by
  simp [restoredGprs, h]

/-- Settles O32: `Restore_GPRs` decides by whether the layout gives the register an offset. -/
theorem restoresTheGeneralRegisters : Obligations.RestoresTheGeneralRegisters :=
  fun _ hr => ⟨_, exec_enclu_of_resumable hr, fun _ _ => readReg_restoredGprs_of_some,
    fun _ => readReg_restoredGprs_of_none⟩

/-! ### `RFLAGS` -/

/-- The eleven flags come from the image (41_enclu_eresume_commit.md R244, R245). -/
theorem flag_mergeRflags_of_restored (old saved : Word) (optIn : Bool) {f : Flag} (hf : f ∈ restoredFlags) :
    flag (mergeRflags old saved optIn) f = flag saved f := by
  have hpos : f.pos ∈ [0, 2, 4, 6, 7, 10, 11, 14, 18, 21, 16] := by
    rw [← restoredFlags_pos]
    exact List.mem_map_of_mem hf
  have hothers : f.pos ≠ 8 ∧ f.pos ≠ 9 ∧ f.pos ≠ 17 := by
    simp only [List.mem_cons, List.not_mem_nil, or_false] at hpos
    omega
  obtain ⟨h8, h9, h17⟩ := hothers
  rw [flag, flag, getLsbD_mergeRflags, if_neg h8, if_neg h9, if_neg h17, if_pos (List.contains_iff_mem.2 hpos)]

/-- Settles O33: none of the eleven is among `TF`, `IF` and `VM`. -/
theorem restoresElevenFlags : Obligations.RestoresElevenFlags :=
  fun _ hr => ⟨_, exec_enclu_of_resumable hr, fun _ hf => flag_mergeRflags_of_restored _ _ _ hf⟩

/-- `IF` is loaded when `IOPL = 3` (41_enclu_eresume_commit.md R247). -/
theorem flag_if_mergeRflags (old saved : Word) (optIn : Bool) :
    flag (mergeRflags old saved optIn) .if_ = if iopl old = 3#2 then flag saved .if_ else flag old .if_ :=
  getLsbD_mergeRflags old saved optIn Flag.if_.pos

/-- `TF` survives on opt-in entry only (41_enclu_eresume_commit.md R248, R257). -/
theorem flag_tf_mergeRflags (old saved : Word) (optIn : Bool) :
    flag (mergeRflags old saved optIn) .tf = (optIn && flag old .tf) :=
  getLsbD_mergeRflags old saved optIn Flag.tf.pos

/-- `TF` after the commit, in terms of the opt-in bit of the TCS. -/
theorem flag_tf_commit (s : State) : flag (commit s).rflags .tf = ((tcsOf s).flags.getLsbD 0 && flag s.rflags .tf) :=
  flag_tf_mergeRflags s.rflags (savedRflags s) (optIn s)

/-- Settles O34: the three flags outside the list of eleven that ERESUME may write. -/
theorem vmIfAndTf : Obligations.VmIfAndTf := by
  intro s hr
  refine ⟨_, exec_enclu_of_resumable hr, flag_vm_mergeRflags _ _ _, fun h3 => ?_, fun h3 => ?_, fun hout => ?_,
    fun hin => ?_⟩
  · exact (flag_if_mergeRflags _ _ _).trans (if_pos h3)
  · exact (flag_if_mergeRflags _ _ _).trans (if_neg h3)
  · rw [flag_tf_commit, hout, Bool.false_and]
  · rw [flag_tf_commit, hin, Bool.true_and]

/-- `IOPL`, `VIF` and `VIP` are not among the bits ERESUME writes (41_enclu_eresume_commit.md R249). -/
theorem getLsbD_mergeRflags_of_iopl_vif_vip (old saved : Word) (optIn : Bool) {j : Nat}
    (hj : j = 12 ∨ j = 13 ∨ j = 19 ∨ j = 20) : (mergeRflags old saved optIn).getLsbD j = old.getLsbD j := by
  rcases hj with rfl | rfl | rfl | rfl <;> exact getLsbD_mergeRflags old saved optIn _

/-- Settles O35: a bit outside the flags R244 to R248 name is a fixed bit or one of `IOPL`, `VIF` and `VIP`. -/
theorem otherRflagsBitsAreKept : Obligations.OtherRflagsBitsAreKept := by
  intro s hr
  have hnamed {j : Nat} := getLsbD_mergeRflags_of_iopl_vif_vip s.rflags (savedRflags s) (optIn s) (j := j)
  have hfixed {j : Nat} := getLsbD_mergeRflags_of_fixed s.rflags (savedRflags s) (optIn s) (j := j)
  refine ⟨_, exec_enclu_of_resumable hr, iopl_eq_of_bits (hnamed (by omega)) (hnamed (by omega)), fun i hi => ?_⟩
  by_cases h : i = 12 ∨ i = 13 ∨ i = 19 ∨ i = 20
  · exact hnamed h
  · exact hfixed (by omega)

/-! ### Extended state -/

@[simp] theorem length_xsaveBytes (s : State) : (xsaveBytes s).length = (tmpXsize s).toNat := by
  simp [xsaveBytes]

theorem getD_xsaveBytes {s : State} {k : Nat} (h : k < (tmpXsize s).toNat) :
    (xsaveBytes s).getD k 0#8 = xsaveByte s k := by
  simp [xsaveBytes, h]

/-- Settles O36: the bytes are those of the XSAVE area in order. -/
theorem loadsTheExtendedState : Obligations.LoadsTheExtendedState :=
  fun s hr => ⟨_, xsaveBytes s, exec_enclu_of_resumable hr, length_xsaveBytes s, fun _ hk => getD_xsaveBytes hk, rfl⟩

/-- Settles O37: both registers are written under the one condition. -/
theorem swapsXcr0 : Obligations.SwapsXcr0 := by
  intro s hr
  refine ⟨_, exec_enclu_of_resumable hr, fun hon => ?_, fun hoff => ?_⟩
  · simp [newCr, hon]
  · simp [newCr, hoff]

/-! ### The TCS -/

/-- The TCS at `LA(DS, RBX)` after the commit. -/
theorem tcs_after_commit {s : State} (hc : Canonical s) : Sparse.get Tcs.blank (commit s).tcs (tcsKey s) = newTcs s :=
  commit_get_tcsPa hc

/-- Settles O38: `CSSA` is not 0 past R184, so that one less does not wrap. -/
theorem storesTheAepAndPopsTheFrame : Obligations.StoresTheAepAndPopsTheFrame := by
  intro s hc hr
  have hactive := hr.checks.frame.config.frameActive
  have hpop : ((tcsOf s).cssa - 1#32).toNat + 1 = (tcsOf s).cssa.toNat := by bv_omega
  refine ⟨_, exec_enclu_of_resumable hr, ?_⟩
  rw [tcs_after_commit hc]
  exact ⟨rfl, hpop⟩

/-- Settles O39: the commit writes one TCS, and of it three fields. -/
theorem claimsTheTcsAndKeepsTheRest : Obligations.ClaimsTheTcsAndKeepsTheRest := by
  intro s hc hr
  refine ⟨_, exec_enclu_of_resumable hr, ?_, fun k hk => ?_⟩
  · rw [tcs_after_commit hc]
    rfl
  · rw [commit_tcs, sparse_get_set _ _ _ _ _ hc.tcs, if_neg hk.symm]

/-! ### FS and GS -/

/-- Settles O40: FS and GS are built alike, and share their access rights. -/
theorem buildsFsAndGs : Obligations.BuildsFsAndGs := by
  intro s hr
  obtain ⟨h0, h1, h2, h3⟩ := newSegRights_typ s
  exact ⟨_, exec_enclu_of_resumable hr, rfl, rfl, rfl, rfl, rfl, rfl, rfl, h0, h1, h2, h3, rfl, rfl, rfl, rfl, rfl,
    rfl, rfl, rfl⟩

/-- Settles O41: each group of `CR_SAVE_*` registers receives the segment register whole. -/
theorem savesFsAndGs : Obligations.SavesFsAndGs :=
  fun _ hr => ⟨_, exec_enclu_of_resumable hr, rfl, rfl, rfl, rfl, rfl, rfl, rfl, rfl⟩

/-! ### Enclave mode and debug state -/

@[simp] theorem length_xsavePagePas (s : State) : (xsavePagePas s).length = (ssaPages s).length := by
  simp [xsavePagePas]

/-- `CR_XSAVE_PAGE_n` is the translation of page `n` of the loop (40_enclu_eresume_checks.md R194). -/
theorem translateAddr_ssaPage {s : State} (h : XsavePagesOk s) {n : Nat} (hn : n < (ssaPages s).length) :
    translateAddr s.plat (dsLinear s ((ssaPages s).getD n 0#64)) .readwrite = .ok ((xsavePagePas s).getD n 0#64) := by
  have hpa : (xsavePagePas s).getD n 0#64 = paOf s (dsLinear s (ssaPages s)[n]) := by simp [xsavePagePas, hn]
  rw [hpa, List.getD_eq_getElem _ _ hn]
  exact translateAddr_paOf (h _ (List.getElem_mem hn)).translated

/-- Settles O42: each physical address named is one that a check found `Translate` to yield. -/
theorem entersEnclaveMode : Obligations.EntersEnclaveMode := by
  intro s hr
  have hframe := hr.checks.frame
  exact ⟨_, exec_enclu_of_resumable hr, rfl, rfl, rfl, translateAddr_paOf hframe.tcsPage.resolves.translated, rfl, rfl,
    translateAddr_paOf hframe.gprPage.translated, length_xsavePagePas s,
    fun _ hn => translateAddr_ssaPage hframe.xsavePages hn⟩

/-- Opt-out entry (41_enclu_eresume_commit.md R256, R257). -/
theorem newDbg_of_optOut {s : State} (h : optIn s = false) :
    newDbg s =
      { suppressCodeBpOutsideElrange := true
        suppressCodeBpInElrange := true
        suppressDataBpInElrange := true
        pendingDbg := []
        pendingMtfVmexit := false
        suppressMtfVmexit := true } := by
  simp [newDbg, h]

/-- Opt-in entry (41_enclu_eresume_commit.md R256, R258). -/
theorem newDbg_of_optIn {s : State} (h : optIn s = true) :
    newDbg s =
      { s.dbg with
        suppressCodeBpOutsideElrange := true
        pendingDbg := if flag s.rflags .tf then [.singleStep] else []
        pendingMtfVmexit := false } := by
  simp [newDbg, h]

/-- `CR_SAVE_TF` is written on opt-out entry only (41_enclu_eresume_commit.md R257). -/
theorem saveTf_newCr (s : State) : (newCr s).saveTf = if optIn s then s.cr.saveTf else tfSaved s := rfl

/-- Settles O43: the opt-in bit decides, and on opt-out entry the parameter decides `CR_SAVE_TF`. -/
theorem debugStateOfTheEntry : Obligations.DebugStateOfTheEntry := by
  intro s hr
  refine ⟨_, exec_enclu_of_resumable hr, rfl, fun hout => ?_, fun hin => ?_⟩
  · have htf : flag (commit s).rflags .tf = false := by rw [flag_tf_commit, hout, Bool.false_and]
    have hsave : (commit s).cr.saveTf = tfSaved s := (saveTf_newCr s).trans (if_neg (ne_true_of_eq_false hout))
    rw [commit_dbg, newDbg_of_optOut hout, hsave]
    exact ⟨rfl, rfl, rfl, rfl, htf, fun hop => by simp [tfSaved, hop], fun hprose => by simp [tfSaved, hprose]⟩
  · have hsave : (commit s).cr.saveTf = s.cr.saveTf := (saveTf_newCr s).trans (if_pos hin)
    rw [commit_dbg, newDbg_of_optIn hin]
    exact ⟨rfl, rfl, rfl, hsave, fun hset => if_pos hset, fun hclear => if_neg (ne_true_of_eq_false hclear)⟩

/-- Settles O44: `CR_ELRANGE` is the range of the SECS, so a breakpoint outside it falls under the bit that is set. -/
theorem outsideBreakpointsAreSuppressed : Obligations.OutsideBreakpointsAreSuppressed :=
  fun _ hr => ⟨_, exec_enclu_of_resumable hr, rfl, fun _ _ houtside =>
    if_neg (ne_true_of_eq_false houtside)⟩

/-- Settles O45: both are written on every entry. -/
theorem flushesAndDisarms : Obligations.FlushesAndDisarms :=
  fun _ hr => ⟨_, exec_enclu_of_resumable hr, rfl, rfl⟩

/-! ### What is left unchanged -/

@[simp] theorem length_newSiblings (s : State) : (newSiblings s).length = s.siblings.length := by
  cases h : optIn s <;> simp [newSiblings, h]

/-- Settles O48: the next state is the commit, which keeps every one of these, and every thread in its place. -/
theorem frameOfASuccessfulEntry : Obligations.FrameOfASuccessfulEntry := by
  intro s t h
  obtain ⟨-, rfl⟩ := exec_enclu_eq_next.1 h
  exact ⟨rfl, rfl, rfl, rfl, rfl, rfl, fun _ => rfl, fun _ => rfl, fun _ => rfl, rfl, rfl, length_newSiblings s⟩

end Sys2Proof.Machine
end

section
/-! The exceptions of `ENCLU[ERESUME]` (60_exceptions.md): what a fault carries and the state it leaves, what an entry makes
of performance monitoring, and the end of a run in enclave mode. -/

namespace Sys2Proof.Machine

open Sys2Proof.Config

/-! ### What a fault is -/

/-- A fault is raised by the stop of a cause, or by a failed XRSTOR: no refusal and no commit is one. -/
theorem execEnclu_eq_fault {s : State} {f : Fault} (h : execEnclu s = .fault f) :
    (∃ e, firstStop (eresumeCauses s) = some (.raised e) ∧ raise e s = .fault f) ∨
      (firstStop (eresumeCauses s) = some .xrstorFailed ∧ stopOutcome s .xrstorFailed = .fault f) := by
  cases hf : firstStop (eresumeCauses s) with
  | none => simp [execEnclu_of_none hf] at h
  | some st =>
    rw [execEnclu_of_stop hf] at h
    cases st with
    | raised e => exact .inl ⟨e, rfl, h⟩
    | xrstorFailed => exact .inr ⟨rfl, h⟩
    | refuse r => simp [stopOutcome] at h

/-- Whatever is raised, the state it leaves is the given one but for what `tick` says (60_exceptions.md R300). -/
theorem after_of_raise {e : Raised} {s : State} {f : Fault} (h : raise e s = .fault f) : f.after = tick s := by
  cases e <;> cases h <;> rfl

/-- A `#GP` is raised with error code 0 (60_exceptions.md R291). -/
theorem errorCode_of_raise {e : Raised} {s t : State} {code : BitVec 32}
    (h : raise e s = .fault (.generalProtection code t)) : code = 0#32 := by
  cases e <;> cases h
  rfl

/-- A `#PF` reports the address it is raised with (60_exceptions.md R292). -/
theorem eq_pf_of_raise {e : Raised} {s t : State} {la : Word} {code : BitVec 32}
    (h : raise e s = .fault (.pageFault la code t)) : ∃ cause, e = .pf la cause := by
  cases e <;> cases h
  exact ⟨_, rfl⟩

/-- A failed XRSTOR raises `#GP` (41_enclu_eresume_commit.md R233). -/
theorem exists_stopOutcome_xrstorFailed (s : State) : ∃ t, stopOutcome s .xrstorFailed = raise .gp t := ⟨_, rfl⟩

/-- Settles O29: a `#GP` is raised by a cause or by a failed XRSTOR, and `raise` gives it code 0. -/
theorem everyGpHasErrorCodeZero : Obligations.EveryGpHasErrorCodeZero := by
  intro s t code h
  rcases execEnclu_eq_fault h with ⟨_, -, hraise⟩ | ⟨-, hfailed⟩
  · exact errorCode_of_raise hraise
  · obtain ⟨_, hgp⟩ := exists_stopOutcome_xrstorFailed s
    exact errorCode_of_raise (hgp.symm.trans hfailed)

/-! ### How the checks stop -/

/-- The addresses that a check reports in a `#PF` (60_exceptions.md R292, R293). -/
def ReportedAddress (s : State) (la : Word) : Prop :=
  la = tcsLinear s ∨ (∃ p ∈ ssaPages s, la = dsLinear s p) ∨ la = dsLinear s (tmpGpr s)

/-- How a check of 40_enclu_eresume_checks.md may stop the instruction: a `#PF` is at a reported address, and XRSTOR is not
yet reached. -/
def CheckStop (s : State) : Stop → Prop
  | .raised (.pf la _) => ReportedAddress s la
  | .xrstorFailed => False
  | _ => True

@[simp] theorem checkStop_gp (s : State) : CheckStop s (.raised .gp) := trivial
@[simp] theorem checkStop_pf (s : State) (la : Word) (cause : PfCause) :
    CheckStop s (.raised (.pf la cause)) ↔ ReportedAddress s la := Iff.rfl
@[simp] theorem checkStop_delivered (s : State) (f : DeliveredFault) : CheckStop s (.raised (.delivered f)) := trivial
@[simp] theorem not_checkStop_xrstorFailed (s : State) : ¬ CheckStop s .xrstorFailed := id
@[simp] theorem checkStop_refuse (s : State) (r : Refusal) : CheckStop s (.refuse r) := trivial

theorem xlatCause_checkStop (n : Nat) (s : State) (la : Word) : CheckStop s (xlatCause n s la).stop := by
  cases h : translateAddr s.plat la .readwrite with
  | ok pa => simp [xlatCause_of_ok h]
  | fault f => simp [xlatCause_of_fault h]

theorem premiseCauses_checkStop (s : State) : ∀ c ∈ premiseCauses s, CheckStop s c.stop := by
  simp [premiseCauses]

theorem tcsPageCauses_checkStop (s : State) : ∀ c ∈ tcsPageCauses s, CheckStop s c.stop := by
  have hla : ReportedAddress s (tcsLinear s) := .inl rfl
  simp [tcsPageCauses, xlatCause_checkStop, hla]

theorem ssaPageCauses_checkStop {s : State} (n : Nat) (k : PfPage) {la : Word} (page : Word)
    (hla : ReportedAddress s la) : ∀ c ∈ ssaPageCauses s n k la page, CheckStop s c.stop := by
  simp [ssaPageCauses, xlatCause_checkStop, hla]

theorem xsaveCauses_checkStop (s : State) : ∀ c ∈ xsaveCauses s, CheckStop s c.stop := by
  intro c hc
  obtain ⟨p, hp, hcp⟩ := List.mem_flatMap.1 hc
  exact ssaPageCauses_checkStop _ _ _ (.inr (.inl ⟨p, hp, rfl⟩)) c hcp

theorem gprPageCauses_checkStop (s : State) : ∀ c ∈ gprPageCauses s, CheckStop s c.stop := by
  intro c hc
  rcases List.mem_append.1 hc with hc | hc
  · exact ssaPageCauses_checkStop _ _ _ (.inr (.inr rfl)) c hc
  · obtain rfl := List.mem_singleton.1 hc
    exact checkStop_gp s

theorem targetCauses_checkStop (s : State) : ∀ c ∈ targetCauses s, CheckStop s c.stop := by
  simp [targetCauses]

/-- The causes before the TCS is claimed (40_enclu_eresume_checks.md R160 to R208, after the premises). -/
def checkCauses (s : State) : List Cause :=
  premiseCauses s ++ modeCauses s ++ tcsPageCauses s ++ configCauses s ++ xsaveCauses s ++ gprPageCauses s ++
    targetCauses s

theorem eresumeCauses_eq (s : State) : eresumeCauses s = checkCauses s ++ claimCauses s := rfl

theorem checkCauses_checkStop (s : State) : ∀ c ∈ checkCauses s, CheckStop s c.stop := by
  intro c hc
  simp only [checkCauses, List.mem_append] at hc
  rcases hc with (((((hc | hc) | hc) | hc) | hc) | hc) | hc
  · exact premiseCauses_checkStop s c hc
  · rw [modeCauses_stop s c hc]
    exact checkStop_gp s
  · exact tcsPageCauses_checkStop s c hc
  · rw [configCauses_stop s c hc]
    exact checkStop_gp s
  · exact xsaveCauses_checkStop s c hc
  · exact gprPageCauses_checkStop s c hc
  · exact targetCauses_checkStop s c hc

/-- Settles O30: no cause from the claim of the TCS on raises a `#PF`, and each before it reports one of the addresses. -/
theorem pageFaultAddresses : Obligations.PageFaultAddresses := by
  intro s t la code h
  rcases execEnclu_eq_fault h with ⟨e, hstop, hraise⟩ | ⟨-, hfailed⟩
  · obtain ⟨cause, rfl⟩ := eq_pf_of_raise hraise
    obtain ⟨c, hc, -, hcstop⟩ := firstStop_some_mem hstop
    rw [eresumeCauses_eq] at hc
    rcases List.mem_append.1 hc with hc | hc
    · have hcheck := checkCauses_checkStop s c hc
      rwa [hcstop] at hcheck
    · simp only [claimCauses, List.mem_cons, List.not_mem_nil, or_false] at hc
      rcases hc with rfl | rfl | rfl <;> simp at hcstop
  · obtain ⟨_, hgp⟩ := exists_stopOutcome_xrstorFailed s
    obtain ⟨_, hpf⟩ := eq_pf_of_raise (hgp.symm.trans hfailed)
    exact absurd hpf (by simp)

/-! ### The state after a fault -/

/-- No check stops the instruction exactly when R160 to R208 pass. -/
theorem checkCauses_none (s : State) :
    firstStop (checkCauses s) = none ↔ FrameOk s ∧ CheckFieldsReadable s ∧ TargetOk s ∧ SegmentsOk s := by
  simp only [checkCauses, firstStop_append_eq_none, premiseCauses_none, modeCauses_none, tcsPageCauses_none,
    configCauses_none, xsaveCauses_none, gprPageCauses_none, targetCauses_none]
  constructor
  · rintro ⟨⟨⟨⟨⟨⟨hprem, hmode⟩, htcs⟩, hconfig⟩, hxsave⟩, hgpr, hds⟩, hrest⟩
    exact ⟨⟨hprem, hmode, htcs, hconfig, hxsave, hgpr, hds⟩, hrest⟩
  · rintro ⟨⟨hprem, hmode, htcs, hconfig, hxsave, hgpr, hds⟩, hrest⟩
    exact ⟨⟨⟨⟨⟨⟨hprem, hmode⟩, htcs⟩, hconfig⟩, hxsave⟩, hgpr, hds⟩, hrest⟩

/-- XRSTOR runs on a TCS that the claim found `INACTIVE` (40_enclu_eresume_checks.md R209). -/
theorem inactive_and_xrstorFails_of_claimCauses {s : State} (h : firstStop (claimCauses s) = some .xrstorFailed) :
    (tcsOf s).state = .inactive ∧ xrstorFails s = true := by
  cases hstate : (tcsOf s).state with
  | active => simp [claimCauses, firstStop_cons, hstate] at h
  | inactive =>
    cases hx : xrstorFails s with
    | true => exact ⟨rfl, rfl⟩
    | false => simp [claimCauses, firstStop_cons, hstate, hx] at h

/-- XRSTOR is reached with every check passed (41_enclu_eresume_commit.md R233). -/
theorem checksPass_of_xrstorFailed {s : State} (h : firstStop (eresumeCauses s) = some .xrstorFailed) :
    ChecksPass s ∧ xrstorFails s = true := by
  rw [eresumeCauses_eq] at h
  cases hf : firstStop (checkCauses s) with
  | some st =>
    obtain ⟨c, hc, -, hcstop⟩ := firstStop_some_mem hf
    obtain rfl : st = .xrstorFailed := by simpa [firstStop_append_of_some hf] using h
    have hcheck := checkCauses_checkStop s c hc
    rw [hcstop] at hcheck
    exact absurd hcheck (not_checkStop_xrstorFailed s)
  | none =>
    rw [firstStop_append_of_none hf] at h
    obtain ⟨hframe, hfields, htarget, hsegments⟩ := (checkCauses_none s).1 hf
    obtain ⟨hinactive, hx⟩ := inactive_and_xrstorFails_of_claimCauses h
    exact ⟨⟨hframe, hfields, htarget, hsegments, hinactive⟩, hx⟩

/-- Settles O28: a raised exception leaves the state but for the counters, and a failed XRSTOR, reached only with every
check passed, the state with another `XSTATE`. -/
theorem faultsLeaveTheMachineAsItWas : Obligations.FaultsLeaveTheMachineAsItWas := by
  intro s f hc h
  rcases execEnclu_eq_fault h with ⟨e, -, hraise⟩ | ⟨hstop, hfailed⟩
  · rw [after_of_raise hraise]
    exact ⟨sameMachine_tick s, fun _ => sameMachine_tick s⟩
  · have hpass := checksPass_of_xrstorFailed hstop
    have hgp := stopOutcome_xrstorFailed hc hpass.1.inactive
    rw [after_of_raise (hgp.symm.trans hfailed)]
    exact ⟨sameMachine_tick _, fun hnot => absurd hpass hnot⟩

/-! ### Performance monitoring -/

/-- Setting a bit to 1 leaves every other as it was. -/
theorem getLsbD_withBit_true (v : Word) {i : Nat} (hi : i < 64) (j : Nat) :
    (withBit v i true).getLsbD j = (decide (j = i) || v.getLsbD j) := by
  rw [getLsbD_withBit v i j true hi]
  by_cases h : j = i
  · simp [h]
  · simp [h, Ne.symm h]

/-- A thread that counts in AnyThread mode is demoted and told so (60_exceptions.md R320). -/
theorem demoteSibling_of_anyThread {u : Sibling} (h : u.countsAnyThread = true) :
    demoteSibling u = { u with anyThreadDemoted := true, perfGlobalStatus := withBit u.perfGlobalStatus 60 true } :=
  if_pos h

/-- A thread that does not is left alone (60_exceptions.md R320). -/
theorem demoteSibling_of_not_anyThread {u : Sibling} (h : u.countsAnyThread = false) : demoteSibling u = u :=
  if_neg (ne_true_of_eq_false h)

@[simp] theorem demoteSibling_countsAnyThread (u : Sibling) :
    (demoteSibling u).countsAnyThread = u.countsAnyThread := by
  cases h : u.countsAnyThread
  · rw [demoteSibling_of_not_anyThread h, h]
  · rw [demoteSibling_of_anyThread h, h]

/-- Opt-out entry (60_exceptions.md R320). -/
theorem newSiblings_of_optOut {s : State} (h : optIn s = false) : newSiblings s = s.siblings.map demoteSibling :=
  if_neg (ne_true_of_eq_false h)

/-- Opt-in entry (60_exceptions.md R322). -/
theorem newSiblings_of_optIn {s : State} (h : optIn s = true) : newSiblings s = s.siblings := if_pos h

/-- Opt-out entry (60_exceptions.md R318, R319, R321). -/
theorem newPerf_of_optOut {s : State} (h : optIn s = false) :
    newPerf s =
      { s.perf with
        perfmonSuppressed := true
        pebsSuppressed := true
        globalStatus :=
          if s.oracle.perfmonSuppressedAny then withBit (withBit s.perf.globalStatus 60 true) 63 true
          else s.perf.globalStatus } :=
  if_neg (ne_true_of_eq_false h)

/-- Opt-in entry (60_exceptions.md R322). -/
theorem newPerf_of_optIn {s : State} (h : optIn s = true) : newPerf s = s.perf := if_pos h

/-- `IA32_PERF_GLOBAL_STATUS` after an opt-out entry, bit by bit (60_exceptions.md R321). -/
theorem getLsbD_globalStatus_of_optOut {s : State} (h : optIn s = false) (i : Nat) :
    (newPerf s).globalStatus.getLsbD i =
      ((s.oracle.perfmonSuppressedAny && decide (i = 60 ∨ i = 63)) || s.perf.globalStatus.getLsbD i) := by
  rw [newPerf_of_optOut h]
  cases hany : s.oracle.perfmonSuppressedAny
  · simp
  · simp only [if_true, getLsbD_withBit_true _ (by decide : 60 < 64), getLsbD_withBit_true _ (by decide : 63 < 64),
      Bool.true_and, Bool.decide_or, Bool.or_left_comm, Bool.or_assoc]

/-- Settles O46: the opt-in bit decides, and each other thread is what the demotion makes of it. -/
theorem optOutSuppressesPerformanceMonitoring : Obligations.OptOutSuppressesPerformanceMonitoring := by
  intro s hr hout
  have hperf := newPerf_of_optOut hout
  refine ⟨_, exec_enclu_of_resumable hr, ?_, ?_, length_newSiblings s, fun n u hu => ⟨demoteSibling u, ?_,
    demoteSibling_countsAnyThread u, fun hcounts => ?_, demoteSibling_of_not_anyThread⟩⟩
  · simp [hperf]
  · simp [hperf]
  · simp [newSiblings_of_optOut hout, hu]
  · rw [demoteSibling_of_anyThread hcounts]
    exact ⟨rfl, getLsbD_withBit_true _ (by decide)⟩

/-- Settles O47: the counting of the two counters is all that an opt-in entry adds. -/
theorem globalStatusBits : Obligations.GlobalStatusBits := by
  intro s hr
  refine ⟨_, exec_enclu_of_resumable hr, getLsbD_globalStatus_of_optOut, fun hin => ?_⟩
  have hperf := newPerf_of_optIn hin
  have hsiblings := newSiblings_of_optIn hin
  simp [hperf, hsiblings]

/-! ### The end of a run -/

/-- A state from which a step goes on is outside enclave mode (60_exceptions.md R310). -/
theorem notInEnclave_of_step_eq_next {s t : State} (h : step s = .next t) : s.cr.enclaveMode = false :=
  (step_eq_next h).1.checks.frame.mode.notInEnclave

/-- A step that goes on ends in enclave mode (60_exceptions.md R310). -/
theorem inEnclave_after_step {s t : State} (h : step s = .next t) : t.cr.enclaveMode = true := by
  obtain ⟨-, rfl⟩ := step_eq_next h
  rfl

/-- Settles O56: a step ends in the mode from which none goes on. -/
theorem noStepFollowsAnEntry : Obligations.NoStepFollowsAnEntry := by
  intro s t u h
  have henclave := inEnclave_after_step h
  refine ⟨henclave, fun hnext => ?_⟩
  rw [notInEnclave_of_step_eq_next hnext] at henclave
  exact Bool.false_ne_true henclave

end Sys2Proof.Machine
end

section
/-! What the bytes of the SSA frame can set (70_reset_and_hazards.md R343): the commit from states that differ in memory
alone. Memory is read by `byteAt`, and what is defined through it is the fields of the GPR area and the XSAVE area. -/

namespace Sys2Proof.Machine

/-! ### The commit from another memory -/

/-- `s` with memory `m`. -/
def withMem (s : State) (m : List Host.Cell) : State := { s with mem := m }

section
variable (s : State) (m : List Host.Cell)

/-- The selector, the limit and the rights of FS come from the TCS and DS (41_enclu_eresume_commit.md R252, R253). -/
theorem newFs_withMem : newFs (withMem s m) = { newFs s with base := tmpFsbase (withMem s m) } := rfl

/-- The selector, the limit and the rights of GS come from the TCS and DS (41_enclu_eresume_commit.md R252, R254). -/
theorem newGs_withMem : newGs (withMem s m) = { newGs s with base := tmpGsbase (withMem s m) } := rfl

/-- The commit from another memory, in full: no other new value is defined through `byteAt`. The TCS is a record beside
memory (D2), and the `CR_*` registers receive addresses and what registers held, not what memory holds. -/
theorem commit_withMem :
    commit (withMem s m) =
      { commit s with
        mem := m
        rip := tmpTarget (withMem s m)
        gpr := restoredGprs (withMem s m)
        rflags := newRflags (withMem s m)
        xstate := Config.xrstorLoad (xrstorArgs (withMem s m))
        lbr := (commit (withMem s m)).lbr
        fs := { newFs s with base := tmpFsbase (withMem s m) }
        gs := { newGs s with base := tmpGsbase (withMem s m) } } := rfl

variable {s}

/-- Outside 64-bit mode the base of FS comes from the TCS and the SECS (40_enclu_eresume_checks.md R205). -/
theorem newFs_withMem_of_mode32 (h : mode64 s = false) : newFs (withMem s m) = newFs s := by
  have hbase (m : List Host.Cell) : tmpFsbase (withMem s m) = low32 ((tcsOf s).ofsbase + (secsOf s).baseaddr) :=
    if_neg (ne_true_of_eq_false h)
  rw [newFs_withMem, hbase m, ← hbase s.mem]
  rfl

/-- Outside 64-bit mode the base of GS comes from the TCS and the SECS (40_enclu_eresume_checks.md R205). -/
theorem newGs_withMem_of_mode32 (h : mode64 s = false) : newGs (withMem s m) = newGs s := by
  have hbase (m : List Host.Cell) : tmpGsbase (withMem s m) = low32 ((tcsOf s).ogsbase + (secsOf s).baseaddr) :=
    if_neg (ne_true_of_eq_false h)
  rw [newGs_withMem, hbase m, ← hbase s.mem]
  rfl

end

/-! ### `RFLAGS` from another image -/

/-- A bit that is neither `IF` nor one of the eleven restored ones is the same from every image
(41_enclu_eresume_commit.md R246, R248, R249). -/
theorem getLsbD_mergeRflags_congr (old saved saved' : Word) (optIn : Bool) {j : Nat}
    (hj : j ∉ Flag.if_.pos :: restoredFlags.map Flag.pos) :
    (mergeRflags old saved optIn).getLsbD j = (mergeRflags old saved' optIn).getLsbD j := by
  obtain ⟨hif, hrestored⟩ := not_or.1 (List.mem_cons.not.1 hj)
  have hnot : [0, 2, 4, 6, 7, 10, 11, 14, 18, 21, 16].contains j = false :=
    eq_false_of_ne_true fun hc => hrestored (List.contains_iff_mem.1 hc)
  rw [getLsbD_mergeRflags, getLsbD_mergeRflags, hnot, if_neg (c := j = 9) hif, if_neg (c := j = 9) hif]
  rfl

/-- `IF` is the same from every image unless `IOPL = 3` (41_enclu_eresume_commit.md R247). -/
theorem flag_if_mergeRflags_congr {old : Word} (saved saved' : Word) (optIn : Bool) (h : iopl old ≠ 3#2) :
    flag (mergeRflags old saved optIn) .if_ = flag (mergeRflags old saved' optIn) .if_ := by
  rw [flag_if_mergeRflags, flag_if_mergeRflags, if_neg h, if_neg h]

/-! ### The statement -/

/-- Settles O58: both entries make the commit, and of the commit only what `byteAt` reaches can differ. -/
theorem savedImageSetsOnlyWhatIsListed : Obligations.SavedImageSetsOnlyWhatIsListed := by
  intro s t t' m ht ht'
  obtain ⟨-, rfl⟩ := exec_enclu_eq_next.1 ht
  obtain ⟨-, rfl⟩ : Resumable (withMem s m) ∧ t' = commit (withMem s m) := exec_enclu_eq_next.1 ht'
  have hbit {j : Nat} := getLsbD_mergeRflags_congr s.rflags (savedRflags (withMem s m))
    (savedRflags s) (optIn s) (j := j)
  exact ⟨commit_withMem s m, fun h32 => ⟨newFs_withMem_of_mode32 m h32, newGs_withMem_of_mode32 m h32⟩,
    hbit (by decide), hbit (by decide), hbit (by decide), hbit (by decide),
    iopl_eq_of_bits (hbit (by decide)) (hbit (by decide)), flag_if_mergeRflags_congr _ _ _⟩

end Sys2Proof.Machine
end
